-- ==== Sys2Proof/Word.lean ====
section
/-! DEFINITION. The words of the HOTP core (spec/00_scope.md R6, R9, R10) and the two small types that the ALG field of a command stands for. -/

namespace Sys2Proof

/-- A byte is 8 bits (R10). -/
abbrev Byte := BitVec 8

/-- The host register width: 32 bits (R6). A command word has this width too (R80). -/
abbrev Word := BitVec 32

/-- The counter's width, and the word width of SHA-512: 64 bits (R6, R131). -/
abbrev DWord := BitVec 64

/-- A byte address of the host window: 0x000 to 0xFFF, 12 bits (R6, R60). -/
abbrev Addr := BitVec 12

/-- The hash algorithms of the block (R6). -/
inductive HashAlgorithm where
  | sha1
  | sha256
  | sha512
deriving DecidableEq, Repr

/-- What the three bits of the ALG field say (R82): the explicit "unspecified" value, one of the three
algorithms, or an unsupported selector, which keeps the field's own three bits (DESIGN CHOICE, log entry 13; safe). -/
inductive AlgSelector where
  | unspecified
  | sha1
  | sha256
  | sha512
  | unsupported (code : BitVec 3)
deriving DecidableEq, Repr

end Sys2Proof
end

