-- ==== Sys2Proof/Syntax.lean ====
section
/-! DEFINITION. The commands of the block: one constructor per row of spec/opcode_table.json (spec/30_encoding.md R81). -/

namespace Sys2Proof

/-- A command word of the five operations (R81), with the fields R80 gives it: ALG for MAC, TRUNC and HOTP (R82), R for FMT
(R83). A word whose ALG is unsupported still is a MAC, TRUNC or HOTP (R86); its meaning raises InvalidHashAlgorithm. -/
inductive Instr where
  /-- ENC, the Counter Encoder (R100). -/
  | enc
  /-- MAC, the Keyed Digest Generator (R110). -/
  | mac (alg : AlgSelector)
  /-- TRUNC, the Dynamic Truncator (R160). -/
  | trunc (alg : AlgSelector)
  /-- FMT (`reduce = false`) and FMT.R (`reduce = true`), the Decimal Formatter (R170). -/
  | fmt (reduce : Bool)
  /-- HOTP, the whole pipeline (R180). -/
  | hotp (alg : AlgSelector)
deriving DecidableEq, Repr

end Sys2Proof
end

