-- ==== Sys2Proof/WellFormed.lean ====
section
/-! DEFINITION. Which terms of Instr stand for a command word (spec/30_encoding.md R82). -/

namespace Sys2Proof

/-- An unsupported selector is a value of the ALG field from 0b100 to 0b111 (R82): the four lower values have names. -/
def AlgSelector.wellFormed : AlgSelector → Bool
  | .unspecified => true
  | .sha1 => true
  | .sha256 => true
  | .sha512 => true
  | .unsupported code => decide (4 ≤ code.toNat)

/-- The instruction is one that some command word encodes. -/
def Instr.wellFormed : Instr → Bool
  | .enc => true
  | .mac alg => alg.wellFormed
  | .trunc alg => alg.wellFormed
  | .fmt _ => true
  | .hotp alg => alg.wellFormed

end Sys2Proof
end

