-- ==== Sys2Proof/Decode.lean ====
section
/-! DEFINITION. Decoding a command word and encoding a command (spec/30_encoding.md R80 to R86). -/

namespace Sys2Proof

/-- Why a word names no operation. Each of these is the IllegalCommand of R201; the names follow its list. -/
inductive DecodeError where
  /-- RSV (bits 31:8) is not 0 (R84). -/
  | reservedBitsSet
  /-- OP is 0x0 or 0x6 to 0xF (R81). -/
  | reservedOperation
  /-- ENC or FMT with ALG other than 0b000 (R82). -/
  | algNotZero
  /-- R = 1 on an operation other than FMT (R83). -/
  | reduceNotAllowed
deriving DecidableEq, Repr

/-- OP, bits 3:0 (R80). -/
def opField (v : Word) : BitVec 4 := v.extractLsb' 0 4

/-- ALG, bits 6:4 (R80). -/
def algField (v : Word) : BitVec 3 := v.extractLsb' 4 3

/-- R, bit 7 (R80). -/
def reduceField (v : Word) : Bool := v.getLsbD 7

/-- RSV, bits 31:8 (R80). -/
def reservedField (v : Word) : BitVec 24 := v.extractLsb' 8 24

/-- The selector a value of the ALG field stands for (R82). -/
def selectorOfField (a : BitVec 3) : AlgSelector :=
  match a.toNat with
  | 0 => .unspecified
  | 1 => .sha1
  | 2 => .sha256
  | 3 => .sha512
  | _ => .unsupported a

/-- The ALG field of a selector (R82). -/
def fieldOfSelector : AlgSelector → BitVec 3
  | .unspecified => 0#3
  | .sha1 => 1#3
  | .sha256 => 2#3
  | .sha512 => 3#3
  | .unsupported code => code

/-- The algorithm a selector resolves to, at decoding: "unspecified" is SHA-1, the named default; an unsupported selector
resolves to nothing (R82, R183). -/
def AlgSelector.resolve : AlgSelector → Option HashAlgorithm
  | .unspecified => some .sha1
  | .sha1 => some .sha1
  | .sha256 => some .sha256
  | .sha512 => some .sha512
  | .unsupported _ => none

/-- The rejection of R = 1 on an operation other than FMT (R83), and otherwise the instruction. -/
def withoutReduce (r : Bool) (i : Instr) : Except DecodeError Instr :=
  if r then .error .reduceNotAllowed else .ok i

/-- Decoding, total on 32-bit words, its tests in the order of R85. InvalidHashAlgorithm, the other error R85 returns, is
raised by the meaning of the decoded MAC, TRUNC or HOTP (Machine/Operands.lean), before any operand check (DESIGN CHOICE, log
entry 13; safe). -/
def decode (v : Word) : Except DecodeError Instr :=
  if reservedField v ≠ 0#24 then .error .reservedBitsSet
  else match (opField v).toNat with
    | 1 => if algField v ≠ 0#3 then .error .algNotZero else withoutReduce (reduceField v) .enc
    | 2 => withoutReduce (reduceField v) (.mac (selectorOfField (algField v)))
    | 3 => withoutReduce (reduceField v) (.trunc (selectorOfField (algField v)))
    | 4 => if algField v ≠ 0#3 then .error .algNotZero else .ok (.fmt (reduceField v))
    | 5 => withoutReduce (reduceField v) (.hotp (selectorOfField (algField v)))
    | _ => .error .reservedOperation

/-- A command word from its fields, RSV being 0 (R80). -/
def wordOfFields (r : BitVec 1) (alg : BitVec 3) (op : BitVec 4) : Word := 0#24 ++ r ++ alg ++ op

/-- The word of an instruction (R81 to R83). -/
def encode : Instr → Word
  | .enc => wordOfFields 0#1 0#3 1#4
  | .mac alg => wordOfFields 0#1 (fieldOfSelector alg) 2#4
  | .trunc alg => wordOfFields 0#1 (fieldOfSelector alg) 3#4
  | .fmt reduce => wordOfFields (BitVec.ofBool reduce) 0#3 4#4
  | .hotp alg => wordOfFields 0#1 (fieldOfSelector alg) 5#4

/-- What the decoder reads from a table row's word of `nbits` bits, every bit above them 0. A command is one 32-bit number
(R80) with no byte lanes (R65), so the word is handed over as it is (DEDUCED, log entry 14; safe). A number wider than a command word is no command. -/
def decodeTableWord (nbits w : Nat) : Option Instr :=
  if w % 2 ^ nbits < 2 ^ 32 then (decode (BitVec.ofNat 32 (w % 2 ^ nbits))).toOption else none

end Sys2Proof
end

