-- ==== Sys2Proof/Machine/Bytes.lean ====
section
/-! DEFINITION. Byte sequences and their big-endian values (spec/00_scope.md R10). -/

namespace Sys2Proof.Machine

/-- `be_n(v)`: the `n`-byte big-endian encoding of `v mod 2^(8n)` (R10). -/
def be : Nat → Nat → List Byte
  | 0, _ => []
  | n + 1, v => BitVec.ofNat 8 (v >>> (8 * n)) :: be n v

/-- `beval(S)`: the unsigned big-endian value of a byte sequence (R10). -/
def beval (S : List Byte) : Nat := S.foldl (fun value b => value * 256 + b.toNat) 0

/-- `zeros(n)`: `n` zero bytes (R10). -/
def zeros (n : Nat) : List Byte := List.replicate n 0#8

/-- The first `count` pieces of `size` elements each. -/
def chunks {α : Type} (size : Nat) : Nat → List α → List (List α)
  | 0, _ => []
  | count + 1, l => l.take size :: chunks size count (l.drop size)

end Sys2Proof.Machine
end

