-- ==== Sys2Proof/Config.lean ====
section
/-! DEFINITION. The configuration of a block (spec/00_scope.md R7) and the one free value of the model. -/

namespace Sys2Proof

/-- The parameter the model takes (R7). It is fixed for a block and no step changes it. -/
structure Config where
  /-- KEY_CAPACITY: bytes in the KEY buffer. -/
  keyCapacity : Nat
deriving DecidableEq, Repr

/-- The legal values of KEY_CAPACITY: a multiple of 4, from 64 to 3840 (R7). -/
abbrev Config.Legal (c : Config) : Prop :=
  c.keyCapacity % 4 = 0 ∧ 64 ≤ c.keyCapacity ∧ c.keyCapacity ≤ 3840

/-- KEY_CAPACITY is 256 by default (R7). -/
def Config.default : Config := ⟨256⟩

/-- The completion latency (R7, R91): the number of host steps between a command's acceptance and its completion, a free draw.
The `n`-th accepted command of a run takes the `n`-th draw. Every draw is some finite number, which is the fairness R252 assumes;
nothing else is known of it. DESIGN CHOICE, log entry 2; unsafe for a block that stalls for ever. -/
opaque Config.latency : Nat → Nat

end Sys2Proof
end

