-- ==== Sys2Proof/Machine/State.lean ====
section
/-! DEFINITION. The state of the block (spec/10_state.md R20 to R42), what its host has still to do and has been answered, and the machine after reset. -/

namespace Sys2Proof.Machine

/-- The bytes of the three buffers KEY, MSG and DIGEST (R31 to R33), each at its byte address in the window, as a list of
(address, byte) pairs: addresses strictly rising, and no entry equal to what an unlisted address reads as. -/
abbrev Memory := List Host.Cell

/-- The values STATUS.ERR can hold (R200). Codes 5 to 15 are never produced, so they have no name. -/
inductive ErrorCode where
  | ok
  | invalidHashAlgorithm
  | formatRangeError
  | illegalCommand
  | keyLengthError
deriving DecidableEq, Repr

/-- The operands a command captures at its acceptance (R41, R88). R41's fields that a command does not use have no meaning and
no rule reads them, so each operation has a constructor with the fields it uses; the constructor is the `op` of R40 (DESIGN
CHOICE, log entry 8; safe). -/
inductive Snapshot where
  | enc (ctr : DWord)
  | mac (alg : HashAlgorithm) (key : List Byte) (msg : List Byte)
  | trunc (alg : HashAlgorithm) (dig : List Byte)
  | fmt (reduce : Bool) (val : Word)
  | hotp (alg : HashAlgorithm) (key : List Byte) (ctr : DWord)
deriving DecidableEq, Repr

/-- The engine: `Idle`, or `Busy(op, snap)` (R40). -/
inductive Engine where
  | idle
  | busy (snap : Snapshot)
deriving DecidableEq, Repr

/-- One step of the host (R8, R62, R240), and the polling loop of the assembler (R93). -/
inductive HostStep where
  /-- `MemRead(a, n)`. -/
  | read (a : Addr) (n : Nat)
  /-- `MemWrite(a, n, v)`. The value of a transaction of a width other than 4 is never used (R62), so 32 bits hold every value
  (DESIGN CHOICE, log entry 11; safe). -/
  | write (a : Addr) (n : Nat) (v : Word)
  /-- Assertion of reset (R240). -/
  | reset
  /-- `wait`: read STATUS, and again while the value's bit 0 is 1 (R93). Not recorded in the trace (DEDUCED, log entry 5; unsafe for
  claims about a whole trace). -/
  | poll
deriving DecidableEq, Repr

/-- What the host's trace records of a transaction (R92, R207). -/
inductive BusResponse where
  /-- The value a read returned. -/
  | data (v : Word)
  /-- The error response to a transaction at this address: no data (R207). -/
  | busError (a : Addr)
deriving DecidableEq, Repr

/-- The state: every register, buffer and engine state of R20, and after them five fields of the model's own. STATUS.BUSY is no
field: it reads 1 exactly when the engine is busy (R40). CMD holds no state (R42). Bits of a register that are not used are not
stored (DEDUCED, log entry 19; safe). -/
structure State where
  /-- STATUS.ERR, bits 7:4 (R23). -/
  err : ErrorCode
  /-- STATUS.OVR, bit 8 (R23). -/
  ovr : Bool
  /-- KEYLEN (R24). -/
  keylen : Word
  /-- CTR_HI (R25). -/
  ctrHi : Word
  /-- CTR_LO (R25). -/
  ctrLo : Word
  /-- VAL (R26). -/
  val : Word
  /-- TOFF.OFFSET, bits 3:0 (R27). -/
  toff : BitVec 4
  /-- OTP_BIN.VALUE, bits 19:0 (R28). -/
  otpBin : BitVec 20
  /-- OTP0, characters 0 to 3 (R29). -/
  otp0 : Word
  /-- OTP1, bits 31:16: characters 4 and 5 (R30). -/
  otp1 : BitVec 16
  /-- The bytes of KEY, MSG and DIGEST (R31 to R33). -/
  mem : Memory
  /-- The engine with its snapshot (R40, R41). -/
  engine : Engine
  /-- The model's own: the configuration of this block, which no step changes (R7). DESIGN CHOICE, log entry 6; safe. -/
  config : Config
  /-- The model's own: host steps still to pass before the command in flight completes (R91). DESIGN CHOICE, log entry 2. -/
  wait : Nat
  /-- The model's own: how many completion latencies have been drawn. DESIGN CHOICE, log entry 2. -/
  draws : Nat
  /-- The model's own: the host steps still to come, in the order the host issues them (R68). DESIGN CHOICE, log entry 1; safe.
  Several hosts are one list (DEDUCED, log entry 18; safe). -/
  pending : List HostStep
  /-- The model's own: the host's trace, oldest first (R94). DESIGN CHOICE, log entry 1; safe. -/
  trace : List BusResponse
deriving DecidableEq, Repr

/-- Why a transaction fails. -/
inductive Fault where
  /-- Raised by `memRead` and `memWrite` for a transaction that is not a 32-bit access at a 4-byte-aligned mapped address (R62,
  R207). The host gets it as its error response and the block goes on, so no step ends in it (DEDUCED, log entry 3). Safe for the block; unsafe
  for a platform whose host stops at an error response. -/
  | busError (a : Addr)
deriving DecidableEq, Repr

/-- Why an instruction has no meaning. -/
inductive Refusal where
  /-- Only for an instruction whose meaning has not been written; no arm of `exec` answers it now. Safe. -/
  | notModelled (mnemonic : String)
deriving DecidableEq, Repr

/-- The block after reset (R42): every register and buffer byte 0, the engine idle, and KEY_CAPACITY at its default (R7). The
host has nothing to do and has been answered nothing (the model's own fields: DESIGN CHOICE, log entry 17; unsafe in form). -/
def State.reset : State where
  err := .ok
  ovr := false
  keylen := 0#32
  ctrHi := 0#32
  ctrLo := 0#32
  val := 0#32
  toff := 0#4
  otpBin := 0#20
  otp0 := 0#32
  otp1 := 0#16
  mem := []
  engine := .idle
  config := Config.default
  wait := 0
  draws := 0
  pending := []
  trace := []

end Sys2Proof.Machine
end

