-- ==== Sys2Proof/Machine/Ops.lean ====
section
/-! DEFINITION. The named operations over memory, registers and the engine: the only places that write a field of State. -/

namespace Sys2Proof.Machine

/-! ## Memory: the bytes of KEY, MSG and DIGEST at their window addresses -/

/-- What an unlisted address reads as: every byte of the buffers is 0x00 after reset (spec/10_state.md R42). DESIGN CHOICE,
log entry 10; unsafe for a block with unreset buffers (D27). -/
def Memory.unlisted : Byte := 0#8

/-- The canonical form: addresses strictly rising, and no entry equal to what an unlisted address reads as. -/
abbrev Memory.wf (m : Memory) : Prop :=
  m.Pairwise (fun x y => x.1 < y.1) ∧ ∀ c ∈ m, c.2 ≠ Memory.unlisted

/-- The byte at an address. -/
def Memory.read : Memory → Nat → Byte
  | [], _ => Memory.unlisted
  | (c, x) :: m, a => if c = a then x else Memory.read m a

/-- `m` with the entry `(a, b)` before it, unless an unlisted address reads as `b`. -/
def Memory.consByte (a : Nat) (b : Byte) (m : Memory) : Memory :=
  if b = Memory.unlisted then m else (a, b) :: m

/-- Store one byte, keeping the canonical form. -/
def Memory.write : Memory → Nat → Byte → Memory
  | [], a, b => Memory.consByte a b []
  | (c, x) :: m, a, b =>
    if a < c then Memory.consByte a b ((c, x) :: m)
    else if a = c then Memory.consByte a b m
    else (c, x) :: Memory.write m a b

/-- The `n` bytes from an address, in rising order. -/
def Memory.readBytes (m : Memory) (a : Nat) : Nat → List Byte
  | 0 => []
  | n + 1 => m.read a :: Memory.readBytes m (a + 1) n

/-- Store a byte sequence from an address on, in rising order. -/
def Memory.writeBytes : Memory → Nat → List Byte → Memory
  | m, _, [] => m
  | m, a, b :: bs => Memory.writeBytes (m.write a b) (a + 1) bs

/-- A word of a buffer: its four bytes, the first in bits 31:24 (spec/20_memory.md R64). -/
def Memory.readWord (m : Memory) (a : Nat) : Word := BitVec.ofNat 32 (beval (m.readBytes a 4))

/-- Store a word of a buffer, bits 31:24 into the first of its four bytes (R64). -/
def Memory.writeWord (m : Memory) (a : Nat) (v : Word) : Memory := m.writeBytes a (be 4 v.toNat)

/-- Where the MSG buffer begins, and its length (spec/10_state.md R22, R32). -/
def msgBase : Nat := 0x040
def msgLength : Nat := 8

/-- Where the DIGEST buffer begins, and its length (R22, R33). -/
def digestBase : Nat := 0x080
def digestLength : Nat := 64

/-- Where the KEY buffer begins (R22, R31). Its length is KEY_CAPACITY. -/
def keyBase : Nat := 0x100

/-! ## Errors and the command lifecycle -/

/-- What the block has in place of trap entry (spec/60_exceptions.md R209): a rejected command writes its code to STATUS.ERR,
and nothing else (spec/30_encoding.md R87, spec/60_exceptions.md R200). -/
def State.reject (e : ErrorCode) (s : State) : State := { s with err := e }

/-- Acceptance (R87): STATUS.ERR becomes 0, which is also what the block has in place of trap return (R210), and the engine is
busy with the snapshot. The completion latency is drawn here (R91). -/
def State.accept (snap : Snapshot) (s : State) : State :=
  { s with err := .ok, engine := .busy snap, wait := Config.latency s.draws, draws := s.draws + 1 }

/-- A command written while one is in flight is dropped, and STATUS.OVR says so (R206). -/
def State.overrun (s : State) : State := { s with ovr := true }

/-- The end of a completion: the engine is idle and the snapshot is gone (spec/30_encoding.md R89). -/
def State.retire (s : State) : State := { s with engine := .idle }

/-- The write-1-to-clear of STATUS.OVR (spec/20_memory.md R66). -/
def State.clearOverrun (s : State) : State := { s with ovr := false }

/-- Reset (spec/70_reset_and_hazards.md R240, R241): every piece of the block's state has its value of R42 and a command in
flight is discarded. What the host has still to do and has been answered is the host's, and stays (DESIGN CHOICE, log
entry 1; safe). -/
def State.hardReset (s : State) : State :=
  { State.reset with config := s.config, draws := s.draws, pending := s.pending, trace := s.trace }

/-! ## Registers -/

def State.setKeylen (v : Word) (s : State) : State := { s with keylen := v }
def State.setCtrHi (v : Word) (s : State) : State := { s with ctrHi := v }
def State.setCtrLo (v : Word) (s : State) : State := { s with ctrLo := v }
def State.setVal (v : Word) (s : State) : State := { s with val := v }
def State.setToff (v : BitVec 4) (s : State) : State := { s with toff := v }

/-- The three OTP registers are written together (spec/45_formatter.md R171). -/
def State.setOtp (value : BitVec 20) (chars03 : Word) (chars45 : BitVec 16) (s : State) : State :=
  { s with otpBin := value, otp0 := chars03, otp1 := chars45 }

/-- Store bytes into a buffer, from a window address on. -/
def State.storeBytes (a : Nat) (bs : List Byte) (s : State) : State := { s with mem := s.mem.writeBytes a bs }

/-- Store a word of a buffer at a window address. -/
def State.storeWord (a : Nat) (v : Word) (s : State) : State := { s with mem := s.mem.writeWord a v }

/-! ## The host's side -/

/-- One host step passes: the command in flight is one step nearer to its completion (spec/30_encoding.md R91). -/
def State.tick (s : State) : State := { s with wait := s.wait - 1 }

/-- The host takes its next step, `rest` being what it has to do after it. -/
def State.beginHostStep (rest : List HostStep) (s : State) : State := { s with pending := rest, wait := s.wait - 1 }

/-- The host repeats a step before the others it has still to do. -/
def State.requeue (h : HostStep) (s : State) : State := { s with pending := h :: s.pending }

/-- The host's trace records a response. -/
def State.respond (r : BusResponse) (s : State) : State := { s with trace := s.trace ++ [r] }

end Sys2Proof.Machine
end

