-- ==== Sys2Proof/Machine/Flags.lean ====
section
/-! DEFINITION. The STATUS register, the only condition bits of the block (spec/10_state.md R21, R23). -/

namespace Sys2Proof.Machine

/-- The code of an error in STATUS.ERR (spec/60_exceptions.md R200). -/
def ErrorCode.code : ErrorCode → BitVec 4
  | .ok => 0#4
  | .invalidHashAlgorithm => 1#4
  | .formatRangeError => 2#4
  | .illegalCommand => 3#4
  | .keyLengthError => 4#4

/-- STATUS.BUSY is 1 exactly when the engine is busy (R40). -/
def Engine.isBusy : Engine → Bool
  | .idle => false
  | .busy _ => true

/-- STATUS as it reads: OVR in bit 8, ERR in bits 7:4, BUSY in bit 0, the other bits 0 (R23). -/
def State.statusWord (s : State) : Word :=
  0#23 ++ BitVec.ofBool s.ovr ++ s.err.code ++ 0#3 ++ BitVec.ofBool s.engine.isBusy

/-- A host write of `v` to STATUS: bit 8 = 1 clears OVR, and nothing else changes (spec/20_memory.md R66). -/
def State.writeStatus (v : Word) (s : State) : State := if v.getLsbD 8 then s.clearOverrun else s

end Sys2Proof.Machine
end

