-- ==== Sys2Proof/Machine/Operands.lean ====
section
/-! DEFINITION. Where a command's operands come from, how they are checked, and what a command captures (spec/30_encoding.md R88). -/

namespace Sys2Proof.Machine

/-- The digest length L in bytes (spec/43_sha_functions.md R131, spec/42_keyed_digest.md R115). -/
def digestLen : HashAlgorithm → Nat
  | .sha1 => 20
  | .sha256 => 32
  | .sha512 => 64

/-- The counter of ENC and HOTP: `(reg[CTR_HI] << 32) | reg[CTR_LO]` (spec/10_state.md R25). -/
def State.counter (s : State) : DWord := (s.ctrHi.setWidth 64 <<< 32) ||| s.ctrLo.setWidth 64

/-- The secret: `KEY[0 .. KEYLEN)` (R31). -/
def State.secret (s : State) : List Byte := s.mem.readBytes keyBase s.keylen.toNat

/-- `MSG[0 .. 8)` (R32). -/
def State.message (s : State) : List Byte := s.mem.readBytes msgBase msgLength

/-- `DIGEST[0 .. n)` (R33). -/
def State.digest (n : Nat) (s : State) : List Byte := s.mem.readBytes digestBase n

/-- The OTP modulus, 1,000,000 (spec/00_scope.md R6). -/
def otpModulus : Nat := 1000000

/-- The selector's algorithm, or InvalidHashAlgorithm (spec/60_exceptions.md R202). -/
def resolveSelector (sel : AlgSelector) : Except ErrorCode HashAlgorithm :=
  match sel.resolve with
  | some alg => .ok alg
  | none => .error .invalidHashAlgorithm

/-- OperandCheck of MAC and HOTP: KeyLengthError if KEYLEN > KEY_CAPACITY (R88, R203). -/
def checkKeyLength (s : State) : Except ErrorCode Unit :=
  if s.config.keyCapacity < s.keylen.toNat then .error .keyLengthError else .ok ()

/-- OperandCheck of FMT: FormatRangeError if R = 0 and VAL ≥ 1000000 (R88, R204). -/
def checkFormatRange (reduce : Bool) (s : State) : Except ErrorCode Unit :=
  if reduce = false ∧ otpModulus ≤ s.val.toNat then .error .formatRangeError else .ok ()

/-- Decoding's error before the operand check's, and the capture if neither is raised (R87, R205). -/
def checked {α : Type} (check : Except ErrorCode α) (capture : α → Except ErrorCode Snapshot) : Except ErrorCode Snapshot :=
  match check with
  | .error e => .error e
  | .ok x => capture x

/-- ENC captures the counter (R88). It has no operand check. -/
def captureEnc (s : State) : Except ErrorCode Snapshot := .ok (.enc s.counter)

/-- MAC captures the secret and the message (R88). -/
def captureMac (sel : AlgSelector) (s : State) : Except ErrorCode Snapshot :=
  checked (resolveSelector sel) fun alg => checked (checkKeyLength s) fun _ => .ok (.mac alg s.secret s.message)

/-- TRUNC captures the first L bytes of DIGEST, for the L of its own ALG (R88). -/
def captureTrunc (sel : AlgSelector) (s : State) : Except ErrorCode Snapshot :=
  checked (resolveSelector sel) fun alg => .ok (.trunc alg (s.digest (digestLen alg)))

/-- FMT captures VAL and its R bit (R88). -/
def captureFmt (reduce : Bool) (s : State) : Except ErrorCode Snapshot :=
  checked (checkFormatRange reduce s) fun _ => .ok (.fmt reduce s.val)

/-- HOTP captures the secret and the counter (R88). -/
def captureHotp (sel : AlgSelector) (s : State) : Except ErrorCode Snapshot :=
  checked (resolveSelector sel) fun alg => checked (checkKeyLength s) fun _ => .ok (.hotp alg s.secret s.counter)

/-- The command a snapshot belongs to, under the mnemonic that names its resolved algorithm. -/
def Snapshot.command : Snapshot → Instr
  | .enc _ => .enc
  | .mac alg _ _ => .mac (selectorOf alg)
  | .trunc alg _ => .trunc (selectorOf alg)
  | .fmt reduce _ => .fmt reduce
  | .hotp alg _ _ => .hotp (selectorOf alg)
where
  /-- The selector that names an algorithm (R82). -/
  selectorOf : HashAlgorithm → AlgSelector
    | .sha1 => .sha1
    | .sha256 => .sha256
    | .sha512 => .sha512

/-- One half of a command's life. With the engine idle the command is issued (R87): it is rejected with its error, or accepted
with its snapshot. With the engine busy, and the latency of the command in flight run out, it is the engine's turn: if that
command is this one, `complete` gives the writes of its Exec, and it retires (R89, R90). A command that is not the one whose
completion is due meets a busy engine, and is dropped (R206). DESIGN CHOICE, log entry 7; safe. -/
def lifecycle (capture : State → Except ErrorCode Snapshot) (complete : Snapshot → Option (State → State)) (s : State) :
    Host.Outcome State Fault Refusal :=
  match s.engine with
  | .idle =>
    match capture s with
    | .error e => .next (s.reject e)
    | .ok snap => .next (s.accept snap)
  | .busy snap =>
    match s.wait, complete snap with
    | 0, some writes => .next (writes s).retire
    | _, _ => .next s.overrun

end Sys2Proof.Machine
end

