-- ==== Sys2Proof/Machine/Enc.lean ====
section
/-! DEFINITION. ENC, the Counter Encoder (spec/41_counter_encoder.md R100). -/

namespace Sys2Proof.Machine

/-- `be_8` of a counter (R100). -/
def encodeCounter (ctr : DWord) : List Byte := be 8 ctr.toNat

/-- Exec(ENC, snap): MSG holds the encoded counter (R100). -/
def completeEnc : Snapshot → Option (State → State)
  | .enc ctr => some fun s => s.storeBytes msgBase (encodeCounter ctr)
  | _ => none

/-- ENC (R100). -/
def execEnc (s : State) : Host.Outcome State Fault Refusal := lifecycle captureEnc completeEnc s

end Sys2Proof.Machine
end

