-- ==== Sys2Proof/Machine/Fmt.lean ====
section
/-! DEFINITION. FMT, the Decimal Formatter (spec/45_formatter.md R170 to R172). -/

namespace Sys2Proof.Machine

/-- `ascii(d)`: the character of a decimal digit (spec/00_scope.md R12). -/
def ascii (d : Nat) : Byte := BitVec.ofNat 8 (0x30 + d)

/-- Character `i` of the six that render `n`: character 0 is the most significant digit (R171). -/
def otpChar (n i : Nat) : Byte := ascii (n / 10 ^ (5 - i) % 10)

/-- Characters 0 to 3, packed big-endian as OTP0 holds them (R171, spec/10_state.md R29). -/
def otpChars03 (n : Nat) : Word := otpChar n 0 ++ otpChar n 1 ++ otpChar n 2 ++ otpChar n 3

/-- Characters 4 and 5, as bits 31:16 of OTP1 hold them; its bits 15:0 read 0 and are not stored (R171, R30). -/
def otpChars45 (n : Nat) : BitVec 16 := otpChar n 4 ++ otpChar n 5

/-- Render (R171): OTP_BIN, OTP0 and OTP1 of a value. A value of 1000000 or more never comes here (DESIGN CHOICE, log entry 16). -/
def render (n : Nat) (s : State) : State := s.setOtp (BitVec.ofNat 20 n) (otpChars03 n) (otpChars45 n)

/-- The value FMT renders: reduced when R = 1 (R170). -/
def fmtValue (reduce : Bool) (val : Word) : Nat := if reduce then val.toNat % otpModulus else val.toNat

/-- Exec(FMT, snap) (R170). -/
def completeFmt (reduce : Bool) : Snapshot → Option (State → State)
  | .fmt r val => if r = reduce then some (render (fmtValue r val)) else none
  | _ => none

/-- FMT and FMT.R (R170). -/
def execFmt (reduce : Bool) (s : State) : Host.Outcome State Fault Refusal :=
  lifecycle (captureFmt reduce) (completeFmt reduce) s

end Sys2Proof.Machine
end

