-- ==== Sys2Proof/Machine/Sha.lean ====
section
/-! DEFINITION. SHA-1, SHA-256 and SHA-512 (spec/43_sha_functions.md R130 to R145), which MAC and HOTP use. The spec gives these rules from general knowledge (DESIGN CHOICE to follow them, log entry 9; unsafe if one is wrong). -/

namespace Sys2Proof.Machine

/-- The block size B in bytes (R131). -/
def blockSize : HashAlgorithm → Nat
  | .sha1 => 64
  | .sha256 => 64
  | .sha512 => 128

/-- The length of the padding's length field in bytes (R131). -/
def lengthField : HashAlgorithm → Nat
  | .sha1 => 8
  | .sha256 => 8
  | .sha512 => 16

/-- How many zero bytes the loop of R132 appends: those that bring the length, one byte after the message, to
`B - lenfield` modulo `B`. -/
def padZeros (alg : HashAlgorithm) (n : Nat) : Nat :=
  (2 * blockSize alg - lengthField alg - (n + 1) % blockSize alg) % blockSize alg

/-- Padding (R132). -/
def pad (alg : HashAlgorithm) (M : List Byte) : List Byte :=
  M ++ [0x80#8] ++ zeros (padZeros alg M.length) ++ be (lengthField alg) (8 * M.length)

/-- The blocks of a padded message (R133). -/
def blocks (alg : HashAlgorithm) (P : List Byte) : List (List Byte) :=
  chunks (blockSize alg) (P.length / blockSize alg) P

/-- The 16 big-endian words of `w` bits of a block (R133). -/
def blockWords (w : Nat) (block : List Byte) : List (BitVec w) :=
  (chunks (w / 8) 16 block).map fun bytes => BitVec.ofNat w (beval bytes)

/-- The message schedule: `count` further words after the given ones, each made by `next` from those before it, which stand
newest first, so that `W[t-k]` is the element at index `k - 1`. -/
def extendSchedule {w : Nat} (next : List (BitVec w) → BitVec w) : Nat → List (BitVec w) → List (BitVec w)
  | 0, newestFirst => newestFirst
  | count + 1, newestFirst => extendSchedule next count (next newestFirst :: newestFirst)

/-- The whole schedule of a block, `W[0]` first. -/
def schedule {w : Nat} (next : List (BitVec w) → BitVec w) (count : Nat) (block : List Byte) : List (BitVec w) :=
  (extendSchedule next count (blockWords w block).reverse).reverse

/-! ## SHA-1 -/

/-- The five words of a SHA-1 hash value, and of its working variables (R136). -/
structure Sha1Words where
  a : BitVec 32
  b : BitVec 32
  c : BitVec 32
  d : BitVec 32
  e : BitVec 32
deriving DecidableEq, Repr

/-- `f_t(b, c, d)` (R134). -/
def sha1F (t : Nat) (b c d : BitVec 32) : BitVec 32 :=
  if t < 20 then (b &&& c) ||| (~~~b &&& d)
  else if t < 40 then b ^^^ c ^^^ d
  else if t < 60 then (b &&& c) ||| (b &&& d) ||| (c &&& d)
  else b ^^^ c ^^^ d

/-- `K_t` (R134). -/
def sha1K (t : Nat) : BitVec 32 :=
  if t < 20 then 0x5A827999 else if t < 40 then 0x6ED9EBA1 else if t < 60 then 0x8F1BBCDC else 0xCA62C1D6

/-- The initial hash value (R135). -/
def sha1Init : Sha1Words := ⟨0x67452301, 0xEFCDAB89, 0x98BADCFE, 0x10325476, 0xC3D2E1F0⟩

/-- `W[t] = rotl_32(W[t-3] ^ W[t-8] ^ W[t-14] ^ W[t-16], 1)` (R136). -/
def sha1Next (W : List (BitVec 32)) : BitVec 32 :=
  (W.getD 2 0#32 ^^^ W.getD 7 0#32 ^^^ W.getD 13 0#32 ^^^ W.getD 15 0#32).rotateLeft 1

/-- One round (R136). -/
def sha1Round (v : Sha1Words) (tw : Nat × BitVec 32) : Sha1Words :=
  ⟨v.a.rotateLeft 5 + sha1F tw.1 v.b v.c v.d + v.e + sha1K tw.1 + tw.2, v.a, v.b.rotateLeft 30, v.c, v.d⟩

/-- The compression of one block (R136). -/
def sha1Compress (H : Sha1Words) (block : List Byte) : Sha1Words :=
  let v := ((List.range 80).zip (schedule sha1Next 64 block)).foldl sha1Round H
  ⟨H.a + v.a, H.b + v.b, H.c + v.c, H.d + v.d, H.e + v.e⟩

/-- SHA-1 (R136). -/
def sha1 (M : List Byte) : List Byte :=
  let H := (blocks .sha1 (pad .sha1 M)).foldl sha1Compress sha1Init
  be 4 H.a.toNat ++ be 4 H.b.toNat ++ be 4 H.c.toNat ++ be 4 H.d.toNat ++ be 4 H.e.toNat

/-! ## SHA-256 and SHA-512: one algorithm at two widths -/

/-- The eight words of a hash value, and of its working variables (R140, R144). -/
structure Sha2Words (w : Nat) where
  a : BitVec w
  b : BitVec w
  c : BitVec w
  d : BitVec w
  e : BitVec w
  f : BitVec w
  g : BitVec w
  h : BitVec w
deriving DecidableEq, Repr

/-- What SHA-256 and SHA-512 differ in, beside the width and the block size: the four sigma functions, and the round constants,
one for each round. -/
structure Sha2Variant (w : Nat) where
  S0 : BitVec w → BitVec w
  S1 : BitVec w → BitVec w
  s0 : BitVec w → BitVec w
  s1 : BitVec w → BitVec w
  K : List (BitVec w)

/-- `Ch(x, y, z)` (R137, R141). -/
def sha2Ch {w : Nat} (x y z : BitVec w) : BitVec w := (x &&& y) ^^^ (~~~x &&& z)

/-- `Maj(x, y, z)` (R137, R141). -/
def sha2Maj {w : Nat} (x y z : BitVec w) : BitVec w := (x &&& y) ^^^ (x &&& z) ^^^ (y &&& z)

/-- `W[t] = s1(W[t-2]) + W[t-7] + s0(W[t-15]) + W[t-16]` (R140, R144). -/
def sha2Next {w : Nat} (V : Sha2Variant w) (W : List (BitVec w)) : BitVec w :=
  V.s1 (W.getD 1 0#w) + W.getD 6 0#w + V.s0 (W.getD 14 0#w) + W.getD 15 0#w

/-- One round, with its constant and its schedule word (R140, R144). -/
def sha2Round {w : Nat} (V : Sha2Variant w) (v : Sha2Words w) (kw : BitVec w × BitVec w) : Sha2Words w :=
  let T1 := v.h + V.S1 v.e + sha2Ch v.e v.f v.g + kw.1 + kw.2
  let T2 := V.S0 v.a + sha2Maj v.a v.b v.c
  ⟨T1 + T2, v.a, v.b, v.c, v.d + T1, v.e, v.f, v.g⟩

/-- The compression of one block (R140, R144). -/
def sha2Compress {w : Nat} (V : Sha2Variant w) (H : Sha2Words w) (block : List Byte) : Sha2Words w :=
  let v := (V.K.zip (schedule (sha2Next V) (V.K.length - 16) block)).foldl (sha2Round V) H
  ⟨H.a + v.a, H.b + v.b, H.c + v.c, H.d + v.d, H.e + v.e, H.f + v.f, H.g + v.g, H.h + v.h⟩

/-- A hash value as bytes, each word most significant byte first (R145). -/
def sha2Bytes {w : Nat} (H : Sha2Words w) : List Byte :=
  be (w / 8) H.a.toNat ++ be (w / 8) H.b.toNat ++ be (w / 8) H.c.toNat ++ be (w / 8) H.d.toNat ++
  be (w / 8) H.e.toNat ++ be (w / 8) H.f.toNat ++ be (w / 8) H.g.toNat ++ be (w / 8) H.h.toNat

/-- `K256` (R138). -/
def sha256K : List (BitVec 32) :=
  [0x428A2F98, 0x71374491, 0xB5C0FBCF, 0xE9B5DBA5, 0x3956C25B, 0x59F111F1, 0x923F82A4, 0xAB1C5ED5] ++
  [0xD807AA98, 0x12835B01, 0x243185BE, 0x550C7DC3, 0x72BE5D74, 0x80DEB1FE, 0x9BDC06A7, 0xC19BF174] ++
  [0xE49B69C1, 0xEFBE4786, 0x0FC19DC6, 0x240CA1CC, 0x2DE92C6F, 0x4A7484AA, 0x5CB0A9DC, 0x76F988DA] ++
  [0x983E5152, 0xA831C66D, 0xB00327C8, 0xBF597FC7, 0xC6E00BF3, 0xD5A79147, 0x06CA6351, 0x14292967] ++
  [0x27B70A85, 0x2E1B2138, 0x4D2C6DFC, 0x53380D13, 0x650A7354, 0x766A0ABB, 0x81C2C92E, 0x92722C85] ++
  [0xA2BFE8A1, 0xA81A664B, 0xC24B8B70, 0xC76C51A3, 0xD192E819, 0xD6990624, 0xF40E3585, 0x106AA070] ++
  [0x19A4C116, 0x1E376C08, 0x2748774C, 0x34B0BCB5, 0x391C0CB3, 0x4ED8AA4A, 0x5B9CCA4F, 0x682E6FF3] ++
  [0x748F82EE, 0x78A5636F, 0x84C87814, 0x8CC70208, 0x90BEFFFA, 0xA4506CEB, 0xBEF9A3F7, 0xC67178F2]

/-- `K512` (R142). -/
def sha512K : List (BitVec 64) :=
  [0x428A2F98D728AE22, 0x7137449123EF65CD, 0xB5C0FBCFEC4D3B2F, 0xE9B5DBA58189DBBC] ++
  [0x3956C25BF348B538, 0x59F111F1B605D019, 0x923F82A4AF194F9B, 0xAB1C5ED5DA6D8118] ++
  [0xD807AA98A3030242, 0x12835B0145706FBE, 0x243185BE4EE4B28C, 0x550C7DC3D5FFB4E2] ++
  [0x72BE5D74F27B896F, 0x80DEB1FE3B1696B1, 0x9BDC06A725C71235, 0xC19BF174CF692694] ++
  [0xE49B69C19EF14AD2, 0xEFBE4786384F25E3, 0x0FC19DC68B8CD5B5, 0x240CA1CC77AC9C65] ++
  [0x2DE92C6F592B0275, 0x4A7484AA6EA6E483, 0x5CB0A9DCBD41FBD4, 0x76F988DA831153B5] ++
  [0x983E5152EE66DFAB, 0xA831C66D2DB43210, 0xB00327C898FB213F, 0xBF597FC7BEEF0EE4] ++
  [0xC6E00BF33DA88FC2, 0xD5A79147930AA725, 0x06CA6351E003826F, 0x142929670A0E6E70] ++
  [0x27B70A8546D22FFC, 0x2E1B21385C26C926, 0x4D2C6DFC5AC42AED, 0x53380D139D95B3DF] ++
  [0x650A73548BAF63DE, 0x766A0ABB3C77B2A8, 0x81C2C92E47EDAEE6, 0x92722C851482353B] ++
  [0xA2BFE8A14CF10364, 0xA81A664BBC423001, 0xC24B8B70D0F89791, 0xC76C51A30654BE30] ++
  [0xD192E819D6EF5218, 0xD69906245565A910, 0xF40E35855771202A, 0x106AA07032BBD1B8] ++
  [0x19A4C116B8D2D0C8, 0x1E376C085141AB53, 0x2748774CDF8EEB99, 0x34B0BCB5E19B48A8] ++
  [0x391C0CB3C5C95A63, 0x4ED8AA4AE3418ACB, 0x5B9CCA4F7763E373, 0x682E6FF3D6B2B8A3] ++
  [0x748F82EE5DEFB2FC, 0x78A5636F43172F60, 0x84C87814A1F0AB72, 0x8CC702081A6439EC] ++
  [0x90BEFFFA23631E28, 0xA4506CEBDE82BDE9, 0xBEF9A3F7B2C67915, 0xC67178F2E372532B] ++
  [0xCA273ECEEA26619C, 0xD186B8C721C0C207, 0xEADA7DD6CDE0EB1E, 0xF57D4F7FEE6ED178] ++
  [0x06F067AA72176FBA, 0x0A637DC5A2C898A6, 0x113F9804BEF90DAE, 0x1B710B35131C471B] ++
  [0x28DB77F523047D84, 0x32CAAB7B40C72493, 0x3C9EBE0A15C9BEBC, 0x431D67C49C100D4C] ++
  [0x4CC5D4BECB3E42B6, 0x597F299CFC657E2A, 0x5FCB6FAB3AD6FAEC, 0x6C44198C4A475817]

/-- The initial hash value of SHA-256 (R139). -/
def sha256Init : Sha2Words 32 :=
  ⟨0x6A09E667, 0xBB67AE85, 0x3C6EF372, 0xA54FF53A, 0x510E527F, 0x9B05688C, 0x1F83D9AB, 0x5BE0CD19⟩

/-- The initial hash value of SHA-512 (R143). -/
def sha512Init : Sha2Words 64 :=
  ⟨0x6A09E667F3BCC908, 0xBB67AE8584CAA73B, 0x3C6EF372FE94F82B, 0xA54FF53A5F1D36F1,
   0x510E527FADE682D1, 0x9B05688C2B3E6C1F, 0x1F83D9ABFB41BD6B, 0x5BE0CD19137E2179⟩

/-- SHA-256's functions and constants (R137, R138). -/
def sha256Variant : Sha2Variant 32 where
  S0 x := x.rotateRight 2 ^^^ x.rotateRight 13 ^^^ x.rotateRight 22
  S1 x := x.rotateRight 6 ^^^ x.rotateRight 11 ^^^ x.rotateRight 25
  s0 x := x.rotateRight 7 ^^^ x.rotateRight 18 ^^^ (x >>> 3)
  s1 x := x.rotateRight 17 ^^^ x.rotateRight 19 ^^^ (x >>> 10)
  K := sha256K

/-- SHA-512's functions and constants (R141, R142). -/
def sha512Variant : Sha2Variant 64 where
  S0 x := x.rotateRight 28 ^^^ x.rotateRight 34 ^^^ x.rotateRight 39
  S1 x := x.rotateRight 14 ^^^ x.rotateRight 18 ^^^ x.rotateRight 41
  s0 x := x.rotateRight 1 ^^^ x.rotateRight 8 ^^^ (x >>> 7)
  s1 x := x.rotateRight 19 ^^^ x.rotateRight 61 ^^^ (x >>> 6)
  K := sha512K

/-- SHA-256 (R140). -/
def sha256 (M : List Byte) : List Byte :=
  sha2Bytes ((blocks .sha256 (pad .sha256 M)).foldl (sha2Compress sha256Variant) sha256Init)

/-- SHA-512 (R144). -/
def sha512 (M : List Byte) : List Byte :=
  sha2Bytes ((blocks .sha512 (pad .sha512 M)).foldl (sha2Compress sha512Variant) sha512Init)

/-- `SHA(alg, M)` (R130). -/
def sha : HashAlgorithm → List Byte → List Byte
  | .sha1 => sha1
  | .sha256 => sha256
  | .sha512 => sha512

end Sys2Proof.Machine
end

