-- ==== Sys2Proof/Machine/Hmac.lean ====
section
/-! DEFINITION. HMAC (spec/42_keyed_digest.md R113, R114), which MAC and HOTP use. The spec gives these rules from general knowledge (DESIGN CHOICE to follow them, log entry 9; unsafe if one is wrong). -/

namespace Sys2Proof.Machine

/-- Key normalization (R114): a key longer than the block is hashed, and the rest of the block is zeros. -/
def normalizeKey (alg : HashAlgorithm) (K : List Byte) : List Byte :=
  let K' := if blockSize alg < K.length then sha alg K else K
  K' ++ zeros (blockSize alg - K'.length)

/-- The XOR of every byte of a sequence with one byte (R113). -/
def xorAll (b : Byte) (S : List Byte) : List Byte := S.map fun x => x ^^^ b

/-- HMAC (R113). -/
def hmac (alg : HashAlgorithm) (K m : List Byte) : List Byte :=
  let K0 := normalizeKey alg K
  sha alg (xorAll 0x5C#8 K0 ++ sha alg (xorAll 0x36#8 K0 ++ m))

end Sys2Proof.Machine
end

