-- ==== Sys2Proof/Machine/Mac.lean ====
section
/-! DEFINITION. MAC, the Keyed Digest Generator (spec/42_keyed_digest.md R110 to R115). -/

namespace Sys2Proof.Machine

/-- What MAC leaves in DIGEST: the digest of the message, and zeros behind it (R110, R115). -/
def macDigest (alg : HashAlgorithm) (key msg : List Byte) : List Byte :=
  hmac alg key msg ++ zeros (digestLength - digestLen alg)

/-- Exec(MAC, snap) (R110). -/
def completeMac (sel : AlgSelector) : Snapshot → Option (State → State)
  | .mac alg key msg =>
    if sel.resolve = some alg then some fun s => s.storeBytes digestBase (macDigest alg key msg) else none
  | _ => none

/-- MAC (R110). -/
def execMac (sel : AlgSelector) (s : State) : Host.Outcome State Fault Refusal :=
  lifecycle (captureMac sel) (completeMac sel) s

end Sys2Proof.Machine
end

