-- ==== Sys2Proof/Machine/Trunc.lean ====
section
/-! DEFINITION. TRUNC, the Dynamic Truncator (spec/44_truncator.md R160 to R163). -/

namespace Sys2Proof.Machine

/-- Step 1: the low 4 bits of the digest's last byte (R160). -/
def truncOffset (D : List Byte) : BitVec 4 := (D.getD (D.length - 1) 0#8).setWidth 4

/-- Step 3: the most significant bit of a window's first byte cleared (R160). -/
def maskFirst : List Byte → List Byte
  | [] => []
  | b :: rest => (b &&& 0x7F#8) :: rest

/-- Steps 2 to 4: the masked 4-byte window at the offset, read big-endian (R160). -/
def truncValue (D : List Byte) : Word := BitVec.ofNat 32 (beval (maskFirst ((D.drop (truncOffset D).toNat).take 4)))

/-- Exec(TRUNC, snap) (R160). -/
def completeTrunc (sel : AlgSelector) : Snapshot → Option (State → State)
  | .trunc alg D =>
    if sel.resolve = some alg then some fun s => (s.setVal (truncValue D)).setToff (truncOffset D) else none
  | _ => none

/-- TRUNC (R160). -/
def execTrunc (sel : AlgSelector) (s : State) : Host.Outcome State Fault Refusal :=
  lifecycle (captureTrunc sel) (completeTrunc sel) s

end Sys2Proof.Machine
end

