-- ==== Sys2Proof/Machine/Hotp.lean ====
section
/-! DEFINITION. HOTP, the whole pipeline (spec/46_hotp.md R180 to R183). -/

namespace Sys2Proof.Machine

/-- The pipeline of R180 down to the value it renders: encode the counter, compute the keyed digest, truncate, reduce. -/
def hotpValue (alg : HashAlgorithm) (key : List Byte) (ctr : DWord) : Nat :=
  (truncValue (hmac alg key (encodeCounter ctr))).toNat % otpModulus

/-- Exec(HOTP, snap): the OTP registers only (R180, R182). -/
def completeHotp (sel : AlgSelector) : Snapshot → Option (State → State)
  | .hotp alg key ctr => if sel.resolve = some alg then some (render (hotpValue alg key ctr)) else none
  | _ => none

/-- HOTP (R180). -/
def execHotp (sel : AlgSelector) (s : State) : Host.Outcome State Fault Refusal :=
  lifecycle (captureHotp sel) (completeHotp sel) s

end Sys2Proof.Machine
end

