-- ==== Sys2Proof/Machine/Dispatch.lean ====
section
/-! DEFINITION. exec: one arm per command, each calling its meaning. -/

namespace Sys2Proof.Machine

def exec (i : Instr) (s : State) : Host.Outcome State Fault Refusal :=
  match i with
  -- Counter Encoder (spec/41_counter_encoder.md)
  | .enc => Sys2Proof.Machine.execEnc s
  -- Keyed Digest Generator (spec/42_keyed_digest.md)
  | .mac alg => Sys2Proof.Machine.execMac alg s
  -- Dynamic Truncator (spec/44_truncator.md)
  | .trunc alg => Sys2Proof.Machine.execTrunc alg s
  -- Decimal Formatter (spec/45_formatter.md)
  | .fmt reduce => Sys2Proof.Machine.execFmt reduce s
  -- HOTP Generator (spec/46_hotp.md)
  | .hotp alg => Sys2Proof.Machine.execHotp alg s

end Sys2Proof.Machine
end

