-- ==== Sys2Proof/Machine/Window.lean ====
section
/-! DEFINITION. The host's register window: which addresses are mapped and what each word reads (spec/10_state.md R22, spec/20_memory.md R60 to R66). -/

namespace Sys2Proof.Machine

/-- The words of the window, under the names of R22. -/
inductive Reg where
  | cmd
  | status
  | keylen
  | ctrHi
  | ctrLo
  | val
  | toff
  | otpBin
  | otp0
  | otp1
  | msg (k : Nat)
  | digest (k : Nat)
  | key (k : Nat)
deriving DecidableEq, Repr

/-- The offset of a word (R22). -/
def Reg.offset : Reg → Nat
  | .cmd => 0x000
  | .status => 0x004
  | .keylen => 0x008
  | .ctrHi => 0x00C
  | .ctrLo => 0x010
  | .val => 0x014
  | .toff => 0x018
  | .otpBin => 0x01C
  | .otp0 => 0x020
  | .otp1 => 0x024
  | .msg k => msgBase + 4 * k
  | .digest k => digestBase + 4 * k
  | .key k => keyBase + 4 * k

/-- The word exists in a block of this KEY_CAPACITY (R22). -/
def Reg.present (cap : Nat) : Reg → Bool
  | .msg k => decide (k < 2)
  | .digest k => decide (k < 16)
  | .key k => decide (4 * k < cap)
  | _ => true

/-- `a & ~3`: the offset of the word an address lies in. -/
def wordOffset (a : Addr) : Nat := a.toNat / 4 * 4

/-- An address is mapped if its word is one of the register map's (R61). -/
def mapped (cap : Nat) (a : Addr) : Bool :=
  decide (wordOffset a ≤ 0x024 ∨ (0x040 ≤ wordOffset a ∧ wordOffset a ≤ 0x044) ∨
    (0x080 ≤ wordOffset a ∧ wordOffset a ≤ 0x0BC) ∨ (0x100 ≤ wordOffset a ∧ wordOffset a < 0x100 + cap))

/-- The word at a mapped offset (R22). Where `mapped` does not hold, its answer is not used (DESIGN CHOICE, log entry 16). -/
def regAt (offset : Nat) : Reg :=
  if offset < 0x028 then
    match offset / 4 with
    | 0 => .cmd
    | 1 => .status
    | 2 => .keylen
    | 3 => .ctrHi
    | 4 => .ctrLo
    | 5 => .val
    | 6 => .toff
    | 7 => .otpBin
    | 8 => .otp0
    | _ => .otp1
  else if offset < digestBase then .msg ((offset - msgBase) / 4)
  else if offset < keyBase then .digest ((offset - digestBase) / 4)
  else .key ((offset - keyBase) / 4)

/-- `ReadWord` (R66): bits outside a register's used width read as 0 (R22). -/
def readReg (s : State) : Reg → Word
  | .cmd => 0#32
  | .status => s.statusWord
  | .keylen => s.keylen
  | .ctrHi => s.ctrHi
  | .ctrLo => s.ctrLo
  | .val => s.val
  | .toff => s.toff.setWidth 32
  | .otpBin => s.otpBin.setWidth 32
  | .otp0 => s.otp0
  | .otp1 => s.otp1 ++ 0#16
  | .msg k => s.mem.readWord (Reg.msg k).offset
  | .digest k => s.mem.readWord (Reg.digest k).offset
  | .key k => s.mem.readWord (Reg.key k).offset

/-- A transaction is served only if it is a 32-bit access at a 4-byte-aligned mapped address (R62, R63). -/
def served (s : State) (a : Addr) (n : Nat) : Bool :=
  decide (n = 4 ∧ a.toNat % 4 = 0) && mapped s.config.keyCapacity a

/-- `MemRead(a, n)` (R62). -/
def memRead (a : Addr) (n : Nat) (s : State) : Except Fault Word :=
  if served s a n then .ok (readReg s (regAt (wordOffset a))) else .error (.busError a)

end Sys2Proof.Machine
end

