-- ==== Sys2Proof/Machine/Bus.lean ====
section
/-! DEFINITION. Issuing a command (spec/30_encoding.md R87), host writes (spec/20_memory.md R62, R66), the host's steps, and whose turn it is. -/

namespace Sys2Proof.Machine

/-- The error code of a word the decoder rejects: IllegalCommand, whatever the reason (spec/60_exceptions.md R201). -/
def DecodeError.code : DecodeError → ErrorCode
  | .reservedBitsSet => .illegalCommand
  | .reservedOperation => .illegalCommand
  | .algNotZero => .illegalCommand
  | .reduceNotAllowed => .illegalCommand

/-- `IssueCommand(v)` (R87): a write to CMD. While a command is in flight the word is dropped undecoded (R206). -/
def issueCommand (v : Word) (s : State) : Host.Outcome State Fault Refusal :=
  match s.engine with
  | .busy _ => .next s.overrun
  | .idle =>
    match decode v with
    | .error e => .next (s.reject (DecodeError.code e))
    | .ok i => exec i s

/-- `WriteWord` (R66). -/
def writeReg (r : Reg) (v : Word) (s : State) : Host.Outcome State Fault Refusal :=
  match r with
  | .cmd => issueCommand v s
  | .status => .next (s.writeStatus v)
  | .keylen => .next (s.setKeylen v)
  | .ctrHi => .next (s.setCtrHi v)
  | .ctrLo => .next (s.setCtrLo v)
  | .val => .next (s.setVal v)
  | .toff => .next s
  | .otpBin => .next s
  | .otp0 => .next s
  | .otp1 => .next s
  | .msg k => .next (s.storeWord (Reg.msg k).offset v)
  | .digest k => .next (s.storeWord (Reg.digest k).offset v)
  | .key k => .next (s.storeWord (Reg.key k).offset v)

/-- `MemWrite(a, n, v)` (R62). -/
def memWrite (a : Addr) (n : Nat) (v : Word) (s : State) : Host.Outcome State Fault Refusal :=
  if served s a n then writeReg (regAt (wordOffset a)) v s else .fault (.busError a)

/-- A read of the host: its trace records the value, or the error response in place of data (R92, R207). DEDUCED, log
entry 3. -/
def hostRead (a : Addr) (n : Nat) (s : State) : Host.Outcome State Fault Refusal :=
  match memRead a n s with
  | .ok v => .next (s.respond (.data v))
  | .error (.busError a') => .next (s.respond (.busError a'))

/-- A write of the host: a failed one changes nothing, and the host gets the error response (R207). -/
def hostWrite (a : Addr) (n : Nat) (v : Word) (s : State) : Host.Outcome State Fault Refusal :=
  match memWrite a n v s with
  | .fault (.busError a') => .next (s.respond (.busError a'))
  | .next t => .next t
  | .refused r => .refused r

/-- One poll of the assembler's `wait` (R93): a read of STATUS, and again while bit 0 (BUSY) is 1. -/
def hostPoll (s : State) : Host.Outcome State Fault Refusal :=
  if (readReg s .status).getLsbD 0 then .next (s.requeue .poll) else .next s

/-- One step of the host (spec/00_scope.md R8). -/
def hostStep (h : HostStep) (s : State) : Host.Outcome State Fault Refusal :=
  match h with
  | .read a n => hostRead a n s
  | .write a n v => hostWrite a n v s
  | .reset => .next s.hardReset
  | .poll => hostPoll s

/-- The command whose completion is due: the engine takes the next step once the latency of the command in flight has run out
(R91). -/
def completionDue (s : State) : Option Snapshot :=
  match s.engine, s.wait with
  | .busy snap, 0 => some snap
  | _, _ => none

/-- One step of the block and its host. The engine completes a command whose completion is due (R89); otherwise the host takes
its next step; and if the host has nothing to do, time passes. -/
def blockStep (s : State) : Host.Outcome State Fault Refusal :=
  match completionDue s with
  | some snap => exec snap.command s
  | none =>
    match s.pending with
    | [] => .next s.tick
    | h :: rest => hostStep h (s.beginHostStep rest)

/-- The state in which the very next step issues the command word `v`: the host is about to write it to CMD, and the engine,
which would drop it, is idle. -/
def placeCommand (v : Word) (s : State) : State :=
  { s with engine := .idle, wait := 0, pending := .write 0x000#12 4 v :: s.pending }

end Sys2Proof.Machine
end

