-- ==== Sys2Proof/Machine/Step.lean ====
section
/-! DEFINITION. The step of the machine (spec/00_scope.md R8), and where a table row's word is put for it. -/

namespace Sys2Proof.Machine

/-- One step of the host or of the engine (R8). -/
def step (s : State) : Host.Outcome State Fault Refusal := blockStep s

/-- The block fetches nothing (spec/20_memory.md R71): a command comes as the word the host writes to CMD. So the word is put as
the host's next write to CMD, with an idle engine that takes it (log entry 4). -/
def State.withFetchWord (s : State) (nbits w : Nat) : State := placeCommand (BitVec.ofNat 32 (w % 2 ^ nbits)) s

end Sys2Proof.Machine
end

