-- ==== Sys2Proof/Machine/Assembler.lean ====
section
/-! DEFINITION. The host's programs: the assembler's statements and their expansions (spec/30_encoding.md R92 to R94), and the host's TOTP duty (spec/46_hotp.md R184). -/

namespace Sys2Proof.Machine

/-- A statement of a host program (R92), the pseudo-instructions included (R93). -/
inductive Stmt where
  /-- `wr NAME, imm32`. -/
  | wr (r : Reg) (v : Word)
  /-- `wr @0x..., imm32`. -/
  | wrAt (a : Addr) (v : Word)
  /-- `rd NAME`. -/
  | rd (r : Reg)
  /-- `rd @0x...`. -/
  | rdAt (a : Addr)
  /-- `cmd MNEMONIC`. -/
  | cmd (i : Instr)
  /-- `cmd.raw imm32`. -/
  | cmdRaw (v : Word)
  /-- `wait`. -/
  | wait
  /-- `ctr imm64`. -/
  | ctr (c : DWord)
  /-- `key hex:HH..`, and `key "text"` with the text's bytes. -/
  | key (bytes : List Byte)
  /-- `digest hex:HH..`. -/
  | digest (bytes : List Byte)
  /-- `clrovr`. -/
  | clrovr
  /-- `hotp.wait MNEMONIC`. -/
  | hotpWait (i : Instr)
deriving DecidableEq, Repr

/-- The suffix of a mnemonic names the ALG field (R92). An unsupported selector has no mnemonic (R86). -/
def algSuffix : AlgSelector → Option String
  | .unspecified => some ""
  | .sha1 => some ".SHA1"
  | .sha256 => some ".SHA256"
  | .sha512 => some ".SHA512"
  | .unsupported _ => none

/-- The mnemonic of a command word (R86, R92). -/
def mnemonic : Instr → Option String
  | .enc => some "ENC"
  | .mac alg => (algSuffix alg).map ("MAC" ++ ·)
  | .trunc alg => (algSuffix alg).map ("TRUNC" ++ ·)
  | .fmt reduce => some (if reduce then "FMT.R" else "FMT")
  | .hotp alg => (algSuffix alg).map ("HOTP" ++ ·)

/-- The bytes of a text: ASCII, one byte per character (R93). -/
def asciiBytes (text : List Char) : List Byte := text.map fun c => BitVec.ofNat 8 c.toNat

/-- A write of one word of the window. -/
def writeWordAt (offset : Nat) (v : Word) : HostStep := .write (BitVec.ofNat 12 offset) 4 v

/-- A read of one word of the window. -/
def readWordAt (offset : Nat) : HostStep := .read (BitVec.ofNat 12 offset) 4

/-- The words that hold a byte sequence, a last one that is not full ending in zeros (R93, spec/20_memory.md R64). -/
def packWords (bytes : List Byte) : List Word :=
  (chunks 4 ((bytes.length + 3) / 4) bytes).map fun piece => BitVec.ofNat 32 (beval (piece ++ zeros (4 - piece.length)))

/-- The writes of words to an offset and the offsets after it. -/
def writeWordsAt (offset : Nat) : List Word → List HostStep
  | [] => []
  | v :: vs => writeWordAt offset v :: writeWordsAt (offset + 4) vs

/-- The words a statement names exist in a block of this KEY_CAPACITY (R92, spec/10_state.md R22): the word of `wr` and `rd`,
and every word that the expansion of `key` and `digest` writes. -/
def Stmt.wellFormed (cap : Nat) : Stmt → Bool
  | .wr r _ => r.present cap
  | .rd r => r.present cap
  | .key bytes => decide (bytes.length ≤ cap)
  | .digest bytes => decide (bytes.length ≤ digestLength)
  | _ => true

/-- The host steps of a well-formed statement (R92, R93). -/
def Stmt.expand : Stmt → List HostStep
  | .wr r v => [writeWordAt r.offset v]
  | .wrAt a v => [.write a 4 v]
  | .rd r => [readWordAt r.offset]
  | .rdAt a => [.read a 4]
  | .cmd i => [writeWordAt Reg.cmd.offset (encode i)]
  | .cmdRaw v => [writeWordAt Reg.cmd.offset v]
  | .wait => [.poll]
  | .ctr c => [writeWordAt Reg.ctrHi.offset (c.extractLsb' 32 32), writeWordAt Reg.ctrLo.offset (c.extractLsb' 0 32)]
  | .key bytes => writeWordAt Reg.keylen.offset (BitVec.ofNat 32 bytes.length) :: writeWordsAt keyBase (packWords bytes)
  | .digest bytes => writeWordsAt digestBase (packWords bytes)
  | .clrovr => [writeWordAt Reg.status.offset 0x100#32]
  | .hotpWait i => [writeWordAt Reg.cmd.offset (encode i), .poll]

/-- The host takes up a program. -/
def State.load (program : List Stmt) (s : State) : State :=
  { s with pending := s.pending ++ program.flatMap Stmt.expand }

/-- A host program has ended when its last statement is done and no command is in flight (R94). -/
def State.ended (s : State) : Bool := s.pending.isEmpty && !s.engine.isBusy

/-- The counter the host derives from a time in seconds since the Unix epoch: `floor(t / 30)` (R184). DESIGN CHOICE,
log entry 12; safe. -/
def totpCounter (unixSeconds : DWord) : DWord := unixSeconds / 30

/-- What the host does for a TOTP: it writes the derived counter and issues HOTP with the same ALG (R184). -/
def totpProgram (alg : AlgSelector) (unixSeconds : DWord) : List Stmt :=
  [.ctr (totpCounter unixSeconds), .cmd (.hotp alg)]

end Sys2Proof.Machine
end

