-- ==== Sys2Proof/Safety.lean ====
section
/-! DEFINITION. What a safe state of the block is, and the terms the statements use. -/

namespace Sys2Proof.Machine

/-- The byte addresses of the three buffers (spec/10_state.md R22, R31 to R33). -/
abbrev InBuffers (cap a : Nat) : Prop :=
  (msgBase ≤ a ∧ a < msgBase + msgLength) ∨ (digestBase ≤ a ∧ a < digestBase + digestLength) ∨ (keyBase ≤ a ∧ a < keyBase + cap)

/-- The operands of a snapshot have the sizes and the range that acceptance checks (R41, spec/30_encoding.md R88). -/
def Snapshot.Sound (cap : Nat) : Snapshot → Prop
  | .enc _ => True
  | .mac _ key msg => key.length ≤ cap ∧ msg.length = msgLength
  | .trunc alg dig => dig.length = digestLen alg
  | .fmt reduce val => reduce = false → val.toNat < otpModulus
  | .hotp _ key _ => key.length ≤ cap

/-- A busy engine holds a sound snapshot, and STATUS.ERR is 0, as acceptance left it (R89); an idle one awaits no completion. -/
def State.EngineSound (s : State) : Prop :=
  match s.engine with
  | .idle => s.wait = 0
  | .busy snap => snap.Sound s.config.keyCapacity ∧ s.err = .ok

/-- The OTP registers are as reset left them, or hold one OTP: a value below the modulus and its six characters (R28 to R30). -/
def State.OtpSound (s : State) : Prop :=
  (s.otpBin = 0#20 ∧ s.otp0 = 0#32 ∧ s.otp1 = 0#16) ∨
  (s.otpBin.toNat < otpModulus ∧ s.otp0 = otpChars03 s.otpBin.toNat ∧ s.otp1 = otpChars45 s.otpBin.toNat)

/-- The invariant of the block: a legal configuration, buffers in canonical form that list buffer bytes only, sound OTP
registers and a sound engine. -/
def State.Inv (s : State) : Prop :=
  s.config.Legal ∧ s.mem.wf ∧ (∀ c ∈ s.mem, InBuffers s.config.keyCapacity c.1) ∧ s.OtpSound ∧ s.EngineSound

/-- The block's own state: the model's own fields blanked, but for the configuration. Two states with one block are the same
block, whatever its host does. -/
def State.block (s : State) : State := { s with wait := 0, draws := 0, pending := [], trace := [] }

/-- The same host: what it has still to do, and what it has been answered. -/
def State.SameHost (s t : State) : Prop := t.pending = s.pending ∧ t.trace = s.trace

/-- A command issued and, where it is accepted, completed with no host step between: the latency 0 that R91 allows. -/
def runCommand (i : Instr) (s : State) : Host.Outcome State Fault Refusal :=
  match exec i s with
  | .next t =>
    match t.engine with
    | .busy snap => exec snap.command { t with wait := 0 }
    | .idle => .next t
  | .fault f => .fault f
  | .refused r => .refused r

/-- The host steps done one after the other, with no completion between them. -/
def hostSteps : List HostStep → State → Host.Outcome State Fault Refusal
  | [], s => .next s
  | h :: rest, s =>
    match hostStep h s with
    | .next t => hostSteps rest t
    | .fault f => .fault f
    | .refused r => .refused r

/-- That many steps of the machine, one after the other. -/
def steps : Nat → State → Host.Outcome State Fault Refusal
  | 0, s => .next s
  | n + 1, s =>
    match step s with
    | .next t => steps n t
    | .fault f => .fault f
    | .refused r => .refused r

/-- The six characters of the OTP, character 0 first (spec/10_state.md R29, R30). -/
def State.otpString (s : State) : List Byte :=
  [s.otp0.extractLsb' 24 8, s.otp0.extractLsb' 16 8, s.otp0.extractLsb' 8 8, s.otp0.extractLsb' 0 8,
   s.otp1.extractLsb' 8 8, s.otp1.extractLsb' 0 8]

/-- The number that decimal characters spell, the most significant first. -/
def decimalValue (cs : List Byte) : Nat := cs.foldl (fun n c => 10 * n + (c.toNat - 0x30)) 0

/-- Two states show the same OTP. -/
def SameOtp (s t : State) : Prop := s.otpBin = t.otpBin ∧ s.otp0 = t.otp0 ∧ s.otp1 = t.otp1

/-- A word that R201 calls an IllegalCommand: its five cases, read off the number. OP is `v % 16`, ALG is `v / 16 % 8`, R is
`v / 128 % 2` and RSV is `v / 256` (spec/30_encoding.md R80). -/
abbrev IllegalWord (v : Nat) : Prop :=
  v / 256 ≠ 0 ∨ (v % 16 = 0 ∨ 6 ≤ v % 16) ∨ (v % 16 = 1 ∧ (v / 16 % 8 ≠ 0 ∨ v / 128 % 2 ≠ 0)) ∨
  (v % 16 = 4 ∧ v / 16 % 8 ≠ 0) ∨ ((v % 16 = 2 ∨ v % 16 = 3 ∨ v % 16 = 5) ∧ v / 128 % 2 ≠ 0)

/-- The table of R82: what each value of the ALG field resolves to, with the digest length and the block size it gives. -/
def SelectorTable : Prop :=
  (selectorOfField 0b000#3 = .unspecified ∧ AlgSelector.unspecified.resolve = some .sha1) ∧
  (selectorOfField 0b001#3 = .sha1 ∧ AlgSelector.sha1.resolve = some .sha1) ∧
  (selectorOfField 0b010#3 = .sha256 ∧ AlgSelector.sha256.resolve = some .sha256) ∧
  (selectorOfField 0b011#3 = .sha512 ∧ AlgSelector.sha512.resolve = some .sha512) ∧
  (∀ a : BitVec 3, 4 ≤ a.toNat → (selectorOfField a).resolve = none) ∧
  (digestLen .sha1 = 20 ∧ digestLen .sha256 = 32 ∧ digestLen .sha512 = 64) ∧
  (blockSize .sha1 = 64 ∧ blockSize .sha256 = 64 ∧ blockSize .sha512 = 128)

/-- The legal command words and their mnemonics (spec/30_encoding.md R86). -/
def commandTable : List (Word × String) :=
  [(0x00000001, "ENC"),
   (0x00000002, "MAC"), (0x00000012, "MAC.SHA1"), (0x00000022, "MAC.SHA256"), (0x00000032, "MAC.SHA512"),
   (0x00000003, "TRUNC"), (0x00000013, "TRUNC.SHA1"), (0x00000023, "TRUNC.SHA256"), (0x00000033, "TRUNC.SHA512"),
   (0x00000004, "FMT"), (0x00000084, "FMT.R"),
   (0x00000005, "HOTP"), (0x00000015, "HOTP.SHA1"), (0x00000025, "HOTP.SHA256"), (0x00000035, "HOTP.SHA512")]

/-- The words of MAC, TRUNC and HOTP with an unsupported ALG (R86). -/
def unsupportedWords : List Word :=
  [0x42, 0x52, 0x62, 0x72, 0x43, 0x53, 0x63, 0x73, 0x45, 0x55, 0x65, 0x75]

end Sys2Proof.Machine
end

