-- ==== Sys2Proof/Certificates/Slice0/Obligations.lean ====
section
/-! DEFINITION. The statements about the block, for the provers. In every one, `wait`, `draws`, `pending` and `trace` are the model's own fields (log entries 1 and 2), and `State.block` leaves them out. -/

open Sys2Proof Sys2Proof.Machine

/-! ## Encoding -/

/-- Nine words written out from R80 to R86, and what they decode to. -/
def Obligations.SampleWordsDecode : Prop :=
  decode 0x00000001 = .ok .enc ∧ decode 0x00000002 = .ok (.mac .unspecified) ∧ decode 0x00000022 = .ok (.mac .sha256) ∧
  decode 0x00000033 = .ok (.trunc .sha512) ∧ decode 0x00000004 = .ok (.fmt false) ∧ decode 0x00000084 = .ok (.fmt true) ∧
  decode 0x00000015 = .ok (.hotp .sha1) ∧ decode 0x00000072 = .ok (.mac (.unsupported 7)) ∧
  decode 0x000000F2 = .error .reduceNotAllowed

/-- No bit of an encoding is dropped: every well-formed instruction decodes from its own word. -/
def Obligations.EncodedInstructionDecodes : Prop :=
  ∀ i : Instr, i.wellFormed = true → decode (encode i) = .ok i

/-- Each word has one meaning: a word that decodes is the word of its instruction, which is well-formed. -/
def Obligations.DecodedWordEncodes : Prop :=
  ∀ (v : Word) (i : Instr), decode v = .ok i → i.wellFormed = true ∧ encode i = v

/-- R86, which the spec marks as derived from R80 to R85: the fifteen legal words are those of the table, each under its mnemonic;
the twelve words with an unsupported ALG decode to MAC, TRUNC and HOTP with it and raise InvalidHashAlgorithm; every other word
raises IllegalCommand. -/
def Obligations.LegalWordsAreTheFifteen : Prop :=
  commandTable.length = 15 ∧ commandTable.Nodup ∧
  (∀ row ∈ commandTable, ∃ i, decode row.1 = .ok i ∧ mnemonic i = some row.2) ∧
  (∀ v ∈ unsupportedWords,
    (∃ c : BitVec 3, c.toNat = v.toNat / 16 ∧
      ((v.toNat % 16 = 2 ∧ decode v = .ok (.mac (.unsupported c))) ∨ (v.toNat % 16 = 3 ∧ decode v = .ok (.trunc (.unsupported c))) ∨
       (v.toNat % 16 = 5 ∧ decode v = .ok (.hotp (.unsupported c))))) ∧
    ∀ s : State, s.engine = .idle → issueCommand v s = .next { s with err := .invalidHashAlgorithm }) ∧
  (∀ v : Word, v ∉ commandTable.map Prod.fst → v ∉ unsupportedWords →
    ∀ s : State, s.engine = .idle → issueCommand v s = .next { s with err := .illegalCommand })

/-! ## Errors, at acceptance -/

/-- A word raises IllegalCommand exactly if it is one of the five cases of R201. That each of the five raises it is R201; that no
other word does is R85 and R86. That every other word decodes, the twelve with an unsupported ALG among them, is R86 and the
model's choice of where their error is raised (log entry 13). -/
def Obligations.IllegalCommandExactly : Prop :=
  ∀ v : Word,
    (IllegalWord v.toNat → ∀ s : State, s.engine = .idle → issueCommand v s = .next { s with err := .illegalCommand }) ∧
    (¬ IllegalWord v.toNat → ∃ i, decode v = .ok i) ∧
    (¬ IllegalWord v.toNat → ∀ s t : State, s.engine = .idle → issueCommand v s = .next t → t.err ≠ .illegalCommand)

/-- R202: MAC, TRUNC and HOTP with ALG from 0b100 to 0b111 raise InvalidHashAlgorithm, whatever KEYLEN is, and their errors are
told apart from a success, whose code is 0. -/
def Obligations.UnsupportedSelectorRejected : Prop :=
  (∀ (v : Word) (s : State), v.toNat / 128 = 0 → (v.toNat % 16 = 2 ∨ v.toNat % 16 = 3 ∨ v.toNat % 16 = 5) →
    4 ≤ v.toNat / 16 % 8 → s.engine = .idle → issueCommand v s = .next { s with err := .invalidHashAlgorithm }) ∧
  ErrorCode.invalidHashAlgorithm.code ≠ ErrorCode.ok.code

/-- R203: MAC and HOTP with KEYLEN > KEY_CAPACITY raise KeyLengthError; no other KEYLEN and no other command does. -/
def Obligations.OverlongKeyRejected : Prop :=
  ∀ (s : State) (sel : AlgSelector) (alg : HashAlgorithm), s.engine = .idle → sel.resolve = some alg →
    (s.config.keyCapacity < s.keylen.toNat →
      exec (.mac sel) s = .next { s with err := .keyLengthError } ∧ exec (.hotp sel) s = .next { s with err := .keyLengthError }) ∧
    (∀ (i : Instr) (t : State), exec i s = .next t → s.err ≠ .keyLengthError → t.err = .keyLengthError →
      s.config.keyCapacity < s.keylen.toNat ∧ ((∃ sel', i = .mac sel') ∨ ∃ sel', i = .hotp sel'))

/-- R204: FMT with R = 0 and VAL ≥ 1000000 raises FormatRangeError and writes no OTP register; nothing else raises it. -/
def Obligations.FormatRangeRejected : Prop :=
  (∀ s : State, s.engine = .idle → 1000000 ≤ s.val.toNat → exec (.fmt false) s = .next { s with err := .formatRangeError }) ∧
  (∀ (i : Instr) (s t : State), s.engine = .idle → exec i s = .next t → s.err ≠ .formatRangeError → t.err = .formatRangeError →
    i = .fmt false ∧ 1000000 ≤ s.val.toNat)

/-- R205: of several errors exactly one is reported, the first in the order overrun, IllegalCommand, InvalidHashAlgorithm,
KeyLengthError, FormatRangeError; and a word that meets none of them is accepted. -/
def Obligations.OneErrorByPriority : Prop :=
  ∀ (v : Word) (s : State),
    let op := v.toNat % 16
    let alg := v.toNat / 16 % 8
    let hashing := op = 2 ∨ op = 3 ∨ op = 5
    let keyed := op = 2 ∨ op = 5
    let r := v.toNat / 128 % 2
    (s.engine ≠ .idle → issueCommand v s = .next { s with ovr := true }) ∧
    (s.engine = .idle → IllegalWord v.toNat → issueCommand v s = .next { s with err := .illegalCommand }) ∧
    (s.engine = .idle → ¬ IllegalWord v.toNat → hashing → 4 ≤ alg → issueCommand v s = .next { s with err := .invalidHashAlgorithm }) ∧
    (s.engine = .idle → ¬ IllegalWord v.toNat → keyed → alg < 4 → s.config.keyCapacity < s.keylen.toNat →
      issueCommand v s = .next { s with err := .keyLengthError }) ∧
    (s.engine = .idle → ¬ IllegalWord v.toNat → op = 4 → r = 0 → 1000000 ≤ s.val.toNat →
      issueCommand v s = .next { s with err := .formatRangeError }) ∧
    (s.engine = .idle → ¬ IllegalWord v.toNat → ¬ (hashing ∧ 4 ≤ alg) → ¬ (keyed ∧ s.config.keyCapacity < s.keylen.toNat) →
      ¬ (op = 4 ∧ r = 0 ∧ 1000000 ≤ s.val.toNat) →
      ∃ t snap, issueCommand v s = .next t ∧ t.err = .ok ∧ t.engine = .busy snap)

/-- R87, R209: issuing a command to an idle engine changes STATUS.ERR and the engine, and nothing else of the block or its host;
and a command that is not accepted leaves the engine idle. -/
def Obligations.IssueChangesOnlyErrAndEngine : Prop :=
  ∀ (i : Instr) (s t : State), s.engine = .idle → exec i s = .next t →
    t.block = { s with err := t.err, engine := t.engine }.block ∧ s.SameHost t ∧ (t.err = .ok ↔ t.engine ≠ .idle)

/-- R206: a command written while one is in flight is dropped and sets OVR, and OVR stays set until the host writes STATUS with
bit 8 set, or resets the block. -/
def Obligations.OverrunIsDroppedAndSticky : Prop :=
  (∀ (v : Word) (s : State) (snap : Snapshot), s.engine = .busy snap → issueCommand v s = .next { s with ovr := true }) ∧
  (∀ s t : State, step s = .next t → s.ovr = true → t.ovr = true ∨
    (completionDue s = none ∧ ∃ rest, s.pending = .reset :: rest ∨ ∃ v, v.getLsbD 8 = true ∧ s.pending = .write 0x004#12 4 v :: rest))

/-- R200: the codes that STATUS.ERR holds. -/
def Obligations.ErrorCodesAreNumbered : Prop :=
  ErrorCode.ok.code = 0#4 ∧ ErrorCode.invalidHashAlgorithm.code = 1#4 ∧ ErrorCode.formatRangeError.code = 2#4 ∧
  ErrorCode.illegalCommand.code = 3#4 ∧ ErrorCode.keyLengthError.code = 4#4 ∧ ∀ e : ErrorCode, e.code.toNat < 5

/-! ## The register window -/

/-- R23, R40: what STATUS reads, field by field. -/
def Obligations.StatusReadsItsFields : Prop :=
  ∀ s : State, ∃ w, memRead 0x004#12 4 s = .ok w ∧ (w.toNat % 2 = 1 ↔ ∃ snap, s.engine = .busy snap) ∧ w.toNat / 2 % 8 = 0 ∧
    w.toNat / 16 % 16 = s.err.code.toNat ∧ (w.toNat / 256 % 2 = 1 ↔ s.ovr = true) ∧ w.toNat / 512 = 0

/-- The ReadWord column of R66: CMD reads 0, STATUS its fields (R23), a register its value with the unused bits 0 (R22), a buffer
word its four bytes (R64). A read changes nothing of the block. -/
def Obligations.ReadsReturnTheRegister : Prop :=
  ∀ s : State, s.config.Legal →
    memRead 0x000#12 4 s = .ok 0#32 ∧
    memRead 0x004#12 4 s = .ok (BitVec.ofNat 32
      ((if s.ovr then 256 else 0) + 16 * s.err.code.toNat + if s.engine = .idle then 0 else 1)) ∧
    memRead 0x008#12 4 s = .ok s.keylen ∧ memRead 0x00C#12 4 s = .ok s.ctrHi ∧
    memRead 0x010#12 4 s = .ok s.ctrLo ∧ memRead 0x014#12 4 s = .ok s.val ∧
    memRead 0x018#12 4 s = .ok (BitVec.ofNat 32 s.toff.toNat) ∧ memRead 0x01C#12 4 s = .ok (BitVec.ofNat 32 s.otpBin.toNat) ∧
    memRead 0x020#12 4 s = .ok s.otp0 ∧ memRead 0x024#12 4 s = .ok (BitVec.ofNat 32 (s.otp1.toNat * 65536)) ∧
    (∀ a : Addr, a.toNat % 4 = 0 → InBuffers s.config.keyCapacity a.toNat →
      memRead a 4 s = .ok (s.mem.read a.toNat ++ s.mem.read (a.toNat + 1) ++ s.mem.read (a.toNat + 2) ++ s.mem.read (a.toNat + 3))) ∧
    (∀ (a : Addr) (n : Nat) (t : State), hostRead a n s = .next t → t.block = s.block ∧ t.pending = s.pending)

/-- The WriteWord column of R66 for the words other than buffers: CMD issues a command, STATUS clears OVR, the RW registers store,
the RO registers ignore. -/
def Obligations.WritesStoreTheRegister : Prop :=
  ∀ (s : State) (v : Word),
    memWrite 0x000#12 4 v s = issueCommand v s ∧
    memWrite 0x004#12 4 v s = .next { s with ovr := s.ovr && !v.getLsbD 8 } ∧
    memWrite 0x008#12 4 v s = .next { s with keylen := v } ∧ memWrite 0x00C#12 4 v s = .next { s with ctrHi := v } ∧
    memWrite 0x010#12 4 v s = .next { s with ctrLo := v } ∧ memWrite 0x014#12 4 v s = .next { s with val := v } ∧
    memWrite 0x018#12 4 v s = .next s ∧ memWrite 0x01C#12 4 v s = .next s ∧ memWrite 0x020#12 4 v s = .next s ∧ memWrite 0x024#12 4 v s = .next s

/-- R64: a write of `v` to a word of a buffer stores byte `j` as bits `[31-8j : 24-8j]`, reads back as `v`, and leaves every other
byte and every register alone. -/
def Obligations.BufferWordsPackBigEndian : Prop :=
  ∀ (s : State) (a : Addr) (v : Word), s.config.Legal → s.mem.wf → a.toNat % 4 = 0 → InBuffers s.config.keyCapacity a.toNat →
    ∃ m, memWrite a 4 v s = .next { s with mem := m } ∧ m.wf ∧
      (∀ j, j < 4 → m.read (a.toNat + j) = BitVec.ofNat 8 (v.toNat / 2 ^ (24 - 8 * j))) ∧
      (∀ x, x < a.toNat ∨ a.toNat + 4 ≤ x → m.read x = s.mem.read x) ∧
      memRead a 4 { s with mem := m } = .ok v

/-- R61: the mapped addresses. -/
def Obligations.MappedAddressesAreTheMaps : Prop :=
  ∀ (cap : Nat) (a : Addr), mapped cap a = true ↔
    let w := (a &&& ~~~3#12).toNat
    w ≤ 0x024 ∨ (w = 0x040 ∨ w = 0x044) ∨ (0x080 ≤ w ∧ w ≤ 0x0BC) ∨ (0x100 ≤ w ∧ w < 0x100 + cap)

/-- R207: a transaction of another width, at an address that is no multiple of 4, or at a reserved address raises BusError: a read
returns no value, a write does not store, issue a command or clear OVR, and STATUS is unchanged. Every other transaction is served. -/
def Obligations.FailedTransactionChangesNothing : Prop :=
  ∀ (s : State) (a : Addr) (n : Nat) (v : Word),
    ((n ≠ 4 ∨ a.toNat % 4 ≠ 0 ∨ mapped s.config.keyCapacity a = false) →
      memRead a n s = .error (.busError a) ∧ memWrite a n v s = .fault (.busError a) ∧
      (∀ t, hostRead a n s = .next t → t.block = s.block) ∧ (∀ t, hostWrite a n v s = .next t → t.block = s.block)) ∧
    ((n = 4 ∧ a.toNat % 4 = 0 ∧ mapped s.config.keyCapacity a = true) →
      (∃ w, memRead a n s = .ok w) ∧ ∃ t, memWrite a n v s = .next t)

/-- The model's reading of R207 (log entry 3): the host's step that fails ends in a next state, in which the host's trace holds the
error response in place of data, and the host goes on with its next step. -/
def Obligations.FailedTransactionIsAnswered : Prop :=
  ∀ (s : State) (a : Addr) (n : Nat) (v : Word) (rest : List HostStep), completionDue s = none →
    (n ≠ 4 ∨ a.toNat % 4 ≠ 0 ∨ mapped s.config.keyCapacity a = false) →
    s.pending = .read a n :: rest ∨ s.pending = .write a n v :: rest →
    ∃ t, step s = .next t ∧ t.block = s.block ∧ t.pending = rest ∧ t.trace = s.trace ++ [.busError a]

/-! ## Reset and the invariant -/

/-- R42: the state after reset. Every register reads 0, STATUS and CMD among them, every buffer byte is 0, and the engine is idle. -/
def Obligations.ResetValuesAreZero : Prop :=
  (∀ r : Reg, readReg State.reset r = 0#32) ∧ (∀ a, State.reset.mem.read a = 0#8) ∧ State.reset.engine = .idle ∧
  State.reset.err = .ok ∧ State.reset.ovr = false

/-- R240, R241: asserted at any time, reset leaves the block as after reset (`State.reset`, whose values ResetValuesAreZero states),
whatever it held and whether or not a command is in flight: the engine is idle with no snapshot, and a command in flight has
written none of its results. -/
def Obligations.ResetDiscardsTheCommand : Prop :=
  ∀ s : State, ∃ t, hostStep .reset s = .next t ∧ t.engine = .idle ∧ completionDue t = none ∧
    t.block = { State.reset with config := s.config }.block

/-- R208, R89: there are no traps, no command fails once it is accepted, and the block never stops. That the machine goes on after a
host transaction that fails is the model's reading of R207 (log entry 3), and that it has a step when the host has nothing to do
is the model's own (log entry 2). -/
def Obligations.EveryStepAnswers : Prop :=
  ∀ s : State, ∃ t, step s = .next t

/-- The invariant holds after reset. -/
def Obligations.ResetMeetsTheInvariant : Prop := State.reset.Inv

/-- Every step keeps the invariant: the configuration is legal, the buffers are in canonical form and list buffer bytes only, the
OTP registers hold one OTP or nothing, and a command in flight has a sound snapshot and ERR = 0. -/
def Obligations.StepKeepsTheInvariant : Prop :=
  ∀ s t : State, s.Inv → step s = .next t → t.Inv

/-- KEY_CAPACITY is a parameter, not state (R7, R20): no step changes the configuration. -/
def Obligations.ConfigurationIsFixed : Prop :=
  ∀ s t : State, step s = .next t → t.config = s.config

/-! ## ENC -/

/-- R100, R101: `be_8` is the big-endian encoding, undone by `beval`, and injective. -/
def Obligations.CounterEncodingIsInvertible : Prop :=
  (∀ c : DWord, beval (encodeCounter c) = c.toNat) ∧ (∀ c d : DWord, encodeCounter c = encodeCounter d → c = d)

/-- R88, R87: ENC is accepted by an idle engine, with the counter CTR_HI:CTR_LO as its snapshot. -/
def Obligations.EncIsAccepted : Prop :=
  ∀ s : State, s.engine = .idle →
    ∃ t, exec .enc s = .next t ∧ t.block = { s with err := .ok, engine := .busy (.enc (s.ctrHi ++ s.ctrLo)) }.block ∧ s.SameHost t

/-- R100: ENC's completion writes the eight bytes of its counter to MSG, most significant first, and nothing else; MSG0 and MSG1
then read the counter's halves. -/
def Obligations.EncWritesTheCounter : Prop :=
  ∀ (s : State) (ctr : DWord), s.engine = .busy (.enc ctr) → s.wait = 0 → s.mem.wf →
    ∃ m, exec .enc s = .next { s with mem := m, engine := .idle } ∧ m.wf ∧
      (∀ i, i < 8 → m.read (0x040 + i) = BitVec.ofNat 8 (ctr.toNat / 2 ^ (8 * (7 - i)))) ∧
      (∀ a, a < 0x040 ∨ 0x048 ≤ a → m.read a = s.mem.read a) ∧
      memRead 0x040#12 4 { s with mem := m } = .ok (ctr.extractLsb' 32 32) ∧ memRead 0x044#12 4 { s with mem := m } = .ok (ctr.extractLsb' 0 32)

/-! ## MAC, HMAC and the hash functions -/

/-- R88, R87: MAC is accepted by an idle engine if ALG is supported and KEYLEN ≤ KEY_CAPACITY, with the secret and MSG as its
snapshot, under the algorithm that R82's table resolves ALG to; with ALG = 0b000 it is MAC.SHA1 throughout (R110, R183). -/
def Obligations.MacIsAccepted : Prop :=
  SelectorTable ∧ (∀ s : State, exec (.mac .unspecified) s = exec (.mac .sha1) s) ∧
  ∀ (s : State) (sel : AlgSelector) (alg : HashAlgorithm), s.engine = .idle → sel.resolve = some alg →
    s.keylen.toNat ≤ s.config.keyCapacity →
    ∃ t key msg, exec (.mac sel) s = .next t ∧
      t.block = { s with err := .ok, engine := .busy (.mac alg key msg) }.block ∧ s.SameHost t ∧
      key.length = s.keylen.toNat ∧ (∀ i, i < key.length → key.getD i 0#8 = s.mem.read (0x100 + i)) ∧
      msg.length = 8 ∧ (∀ i, i < 8 → msg.getD i 0#8 = s.mem.read (0x040 + i))

/-- R110, R115: MAC's completion writes the digest to `DIGEST[0 .. L)` and zeros to `DIGEST[L .. 64)`, and nothing else. -/
def Obligations.MacWritesTheDigest : Prop :=
  ∀ (s : State) (sel : AlgSelector) (alg : HashAlgorithm) (key msg : List Byte), sel.resolve = some alg →
    s.engine = .busy (.mac alg key msg) → s.wait = 0 → s.mem.wf →
    ∃ m, exec (.mac sel) s = .next { s with mem := m, engine := .idle } ∧ m.wf ∧
      (∀ i, i < digestLen alg → m.read (0x080 + i) = (hmac alg key msg).getD i 0#8) ∧
      (∀ i, digestLen alg ≤ i → i < 64 → m.read (0x080 + i) = 0#8) ∧
      (∀ a, a < 0x080 ∨ 0x0C0 ≤ a → m.read a = s.mem.read a)

/-- R130, R115: the digest of every algorithm has its length, 20, 32 or 64 bytes. -/
def Obligations.DigestsHaveTheirLengths : Prop :=
  digestLen .sha1 = 20 ∧ digestLen .sha256 = 32 ∧ digestLen .sha512 = 64 ∧
  (∀ (alg : HashAlgorithm) (M : List Byte), (sha alg M).length = digestLen alg) ∧
  (∀ (alg : HashAlgorithm) (K m : List Byte), (hmac alg K m).length = digestLen alg)

/-- R114: the normalized key is `B` bytes; a longer key is hashed, a shorter one padded with zeros, one of `B` bytes is used as it
is, and the empty one becomes `B` zeros. -/
def Obligations.KeysAreNormalized : Prop :=
  blockSize .sha1 = 64 ∧ blockSize .sha256 = 64 ∧ blockSize .sha512 = 128 ∧
  ∀ (alg : HashAlgorithm) (K : List Byte),
    (normalizeKey alg K).length = blockSize alg ∧
    (blockSize alg < K.length → normalizeKey alg K = sha alg K ++ List.replicate (blockSize alg - digestLen alg) 0#8) ∧
    (K.length ≤ blockSize alg → normalizeKey alg K = K ++ List.replicate (blockSize alg - K.length) 0#8) ∧
    (K.length = blockSize alg → normalizeKey alg K = K) ∧
    normalizeKey alg [] = List.replicate (blockSize alg) 0#8

/-- R113: HMAC is two applications of the hash, to the inner and the outer key: the normalized key, of `B` bytes, XORed bytewise
with `B` copies of 0x36 and of 0x5C. -/
def Obligations.HmacIsTheStandardConstruction : Prop :=
  ∀ (alg : HashAlgorithm) (K m : List Byte),
    let K0 := normalizeKey alg K
    let ipadK := List.zipWith (· ^^^ ·) K0 (List.replicate (blockSize alg) 0x36#8)
    let opadK := List.zipWith (· ^^^ ·) K0 (List.replicate (blockSize alg) 0x5C#8)
    let inner := sha alg (ipadK ++ m)
    K0.length = blockSize alg ∧ inner.length = digestLen alg ∧ hmac alg K m = sha alg (opadK ++ inner) ∧
    (hmac alg K m).length = digestLen alg

/-- R132: padding appends 0x80, the fewest zeros that bring the length to `B - lenfield` modulo `B`, and the bit length in lenfield
bytes, 8 or 16; the result is a multiple of `B`. -/
def Obligations.PaddingFillsTheBlocks : Prop :=
  lengthField .sha1 = 8 ∧ lengthField .sha256 = 8 ∧ lengthField .sha512 = 16 ∧
  ∀ (alg : HashAlgorithm) (M : List Byte),
    (∃ k, pad alg M = M ++ [0x80#8] ++ List.replicate k 0#8 ++ be (lengthField alg) (8 * M.length) ∧
      (M.length + 1 + k) % blockSize alg = blockSize alg - lengthField alg ∧
      ∀ j, j < k → (M.length + 1 + j) % blockSize alg ≠ blockSize alg - lengthField alg) ∧
    (pad alg M).length % blockSize alg = 0

/-- R133, R136, R140, R144: the message schedule of each algorithm holds the block's sixteen big-endian words, and then each word
that its recurrence gives. -/
def Obligations.SchedulesFollowTheirRecurrences : Prop :=
  (∀ block : List Byte,
    let W := schedule sha1Next 64 block
    W.length = 80 ∧ (∀ t, t < 16 → W.getD t 0#32 = BitVec.ofNat 32 (beval ((block.drop (4 * t)).take 4))) ∧
    ∀ t, 16 ≤ t → t < 80 →
      W.getD t 0#32 = (W.getD (t - 3) 0#32 ^^^ W.getD (t - 8) 0#32 ^^^ W.getD (t - 14) 0#32 ^^^ W.getD (t - 16) 0#32).rotateLeft 1) ∧
  (∀ block : List Byte,
    let W := schedule (sha2Next sha256Variant) 48 block
    let s0 := fun x : BitVec 32 => x.rotateRight 7 ^^^ x.rotateRight 18 ^^^ (x >>> 3)
    let s1 := fun x : BitVec 32 => x.rotateRight 17 ^^^ x.rotateRight 19 ^^^ (x >>> 10)
    W.length = 64 ∧ (∀ t, t < 16 → W.getD t 0#32 = BitVec.ofNat 32 (beval ((block.drop (4 * t)).take 4))) ∧
    ∀ t, 16 ≤ t → t < 64 →
      W.getD t 0#32 = s1 (W.getD (t - 2) 0#32) + W.getD (t - 7) 0#32 + s0 (W.getD (t - 15) 0#32) + W.getD (t - 16) 0#32) ∧
  (∀ block : List Byte,
    let W := schedule (sha2Next sha512Variant) 64 block
    let s0 := fun x : BitVec 64 => x.rotateRight 1 ^^^ x.rotateRight 8 ^^^ (x >>> 7)
    let s1 := fun x : BitVec 64 => x.rotateRight 19 ^^^ x.rotateRight 61 ^^^ (x >>> 6)
    W.length = 80 ∧ (∀ t, t < 16 → W.getD t 0#64 = BitVec.ofNat 64 (beval ((block.drop (8 * t)).take 8))) ∧
    ∀ t, 16 ≤ t → t < 80 →
      W.getD t 0#64 = s1 (W.getD (t - 2) 0#64) + W.getD (t - 7) 0#64 + s0 (W.getD (t - 15) 0#64) + W.getD (t - 16) 0#64)

/-- R146 and the last sentence of R132, which the spec marks as derived: how many blocks a padded message has, and so how many
compressions the key hash (of more than `B` bytes), the inner hash (of `B + 8`) and the outer hash (of `B + L`) take. -/
def Obligations.CompressionCounts : Prop :=
  (∀ (alg : HashAlgorithm) (M : List Byte),
    (blocks alg (pad alg M)).length = (M.length + 1 + lengthField alg + blockSize alg - 1) / blockSize alg) ∧
  (∀ K : List Byte, 64 < K.length → (blocks .sha1 (pad .sha1 K)).length = (K.length + 8) / 64 + 1) ∧
  (∀ K : List Byte, 64 < K.length → (blocks .sha256 (pad .sha256 K)).length = (K.length + 8) / 64 + 1) ∧
  (∀ K : List Byte, 128 < K.length → (blocks .sha512 (pad .sha512 K)).length = (K.length + 16) / 128 + 1) ∧
  (∀ (alg : HashAlgorithm) (M : List Byte), M.length = blockSize alg + 8 ∨ M.length = blockSize alg + digestLen alg →
    (blocks alg (pad alg M)).length = 2)

/-! ## TRUNC -/

/-- R88, R87: TRUNC is accepted by an idle engine if ALG is supported, with the first L bytes of DIGEST as its snapshot, for the L
of its own ALG, which R82's table resolves; with ALG = 0b000 it is TRUNC.SHA1 throughout (R183). -/
def Obligations.TruncIsAccepted : Prop :=
  SelectorTable ∧ (∀ s : State, exec (.trunc .unspecified) s = exec (.trunc .sha1) s) ∧
  ∀ (s : State) (sel : AlgSelector) (alg : HashAlgorithm), s.engine = .idle → sel.resolve = some alg →
    ∃ t dig, exec (.trunc sel) s = .next t ∧ t.block = { s with err := .ok, engine := .busy (.trunc alg dig) }.block ∧ s.SameHost t ∧
      dig.length = digestLen alg ∧ (∀ i, i < dig.length → dig.getD i 0#8 = s.mem.read (0x080 + i))

/-- R160, R162: TRUNC's completion writes the masked big-endian window at the offset to VAL, and the offset, the low four bits of
the digest's last byte, to TOFF, and nothing else: DIGEST keeps every byte. -/
def Obligations.TruncWritesTheWindow : Prop :=
  ∀ (s : State) (sel : AlgSelector) (alg : HashAlgorithm) (D : List Byte), sel.resolve = some alg →
    s.engine = .busy (.trunc alg D) → s.wait = 0 → D.length = digestLen alg →
    let offset := (D.getD (digestLen alg - 1) 0#8).toNat % 16
    let b := fun i => (D.getD (offset + i) 0#8).toNat
    exec (.trunc sel) s = .next { s with
      val := BitVec.ofNat 32 (b 0 % 128 * 16777216 + b 1 * 65536 + b 2 * 256 + b 3), toff := BitVec.ofNat 4 offset, engine := .idle }

/-- R161: for every digest of 20, 32 or 64 bytes the window lies inside its first 19 bytes, so TRUNC never reads past the digest. -/
def Obligations.TruncationStaysInBounds : Prop :=
  ∀ D : List Byte, D.length = 20 ∨ D.length = 32 ∨ D.length = 64 →
    (truncOffset D).toNat ≤ 15 ∧ (truncOffset D).toNat + 4 ≤ 19 ∧ 19 < D.length ∧
    ((D.take 19).drop (truncOffset D).toNat).take 4 = (D.drop (truncOffset D).toNat).take 4 ∧
    ((D.drop (truncOffset D).toNat).take 4).length = 4

/-- R163, which the spec marks as derived: clearing the top bit of the window's first byte is masking its value with 0x7FFFFFFF, and the result is below 2^31. -/
def Obligations.TruncatedValueIsMasked : Prop :=
  ∀ D : List Byte, 19 ≤ D.length →
    truncValue D = BitVec.ofNat 32 (beval ((D.drop (truncOffset D).toNat).take 4)) &&& 0x7FFFFFFF#32 ∧ (truncValue D).toNat < 2 ^ 31

/-- R247: DIGEST does not record its algorithm. TRUNC.SHA256 after MAC.SHA1 reads byte 31, which MAC wrote as 0, so its offset is
0; TRUNC.SHA1 after MAC.SHA256 reads byte 19. -/
def Obligations.TruncGoesByItsOwnAlgorithm : Prop :=
  ∀ s : State, s.engine = .idle → s.mem.wf → s.keylen.toNat ≤ s.config.keyCapacity →
    (∃ t u, runCommand (.mac .sha1) s = .next t ∧ runCommand (.trunc .sha256) t = .next u ∧ u.toff = 0#4 ∧ u.err = .ok) ∧
    (∃ t u, runCommand (.mac .sha256) s = .next t ∧ runCommand (.trunc .sha1) t = .next u ∧
      u.toff.toNat = (t.mem.read (0x080 + 19)).toNat % 16 ∧ u.err = .ok)

/-! ## FMT -/

/-- R88, R87: FMT is accepted by an idle engine, with VAL as its snapshot, if R = 1 or VAL < 1000000. -/
def Obligations.FmtIsAccepted : Prop :=
  ∀ (s : State) (reduce : Bool), s.engine = .idle → (reduce = true ∨ s.val.toNat < 1000000) →
    ∃ t, exec (.fmt reduce) s = .next t ∧ t.block = { s with err := .ok, engine := .busy (.fmt reduce s.val) }.block ∧ s.SameHost t

/-- R170, R171: FMT's completion writes the value, reduced when R = 1, to OTP_BIN and its six digits' characters to OTP0 and OTP1,
and nothing else. -/
def Obligations.FmtRendersTheValue : Prop :=
  ∀ (s : State) (reduce : Bool) (val : Word), s.engine = .busy (.fmt reduce val) → s.wait = 0 →
    (reduce = true ∨ val.toNat < 1000000) →
    let n := if reduce then val.toNat % 1000000 else val.toNat
    let c := fun i => 0x30 + n / 10 ^ (5 - i) % 10
    exec (.fmt reduce) s = .next { s with
      otpBin := BitVec.ofNat 20 n
      otp0 := BitVec.ofNat 32 (c 0 * 16777216 + c 1 * 65536 + c 2 * 256 + c 3)
      otp1 := BitVec.ofNat 16 (c 4 * 256 + c 5), engine := .idle }

/-- R172, which the spec marks as derived: the four laws of FMT. The characters, each a digit, spell OTP_BIN; OTP_BIN is the value FMT renders, at most 999999;
FMT.R gives what FMT gives on `VAL mod 1000000`; and for VAL ≤ 999999 the two give the same. -/
def Obligations.OtpSpellsItsValue : Prop :=
  ∀ s : State, s.engine = .idle →
    (∃ t, runCommand (.fmt true) s = .next t ∧ t.otpBin.toNat = s.val.toNat % 1000000 ∧ t.otpBin.toNat ≤ 999999 ∧
      decimalValue t.otpString = t.otpBin.toNat ∧ (∀ c ∈ t.otpString, 0x30 ≤ c.toNat ∧ c.toNat ≤ 0x39) ∧
      ∃ u, runCommand (.fmt false) { s with val := BitVec.ofNat 32 (s.val.toNat % 1000000) } = .next u ∧ SameOtp u t) ∧
    (s.val.toNat ≤ 999999 → ∃ t u, runCommand (.fmt true) s = .next t ∧ runCommand (.fmt false) s = .next u ∧ SameOtp u t ∧
      u.otpBin.toNat = s.val.toNat)

/-! ## HOTP -/

/-- R88, R87: HOTP is accepted by an idle engine if ALG is supported and KEYLEN ≤ KEY_CAPACITY, with the secret and the counter as
its snapshot, under the algorithm that R82's table resolves ALG to; with ALG = 0b000 it is HOTP.SHA1 throughout (R180, R183). -/
def Obligations.HotpIsAccepted : Prop :=
  SelectorTable ∧ (∀ s : State, exec (.hotp .unspecified) s = exec (.hotp .sha1) s) ∧
  ∀ (s : State) (sel : AlgSelector) (alg : HashAlgorithm), s.engine = .idle → sel.resolve = some alg →
    s.keylen.toNat ≤ s.config.keyCapacity →
    ∃ t key, exec (.hotp sel) s = .next t ∧
      t.block = { s with err := .ok, engine := .busy (.hotp alg key (s.ctrHi ++ s.ctrLo)) }.block ∧ s.SameHost t ∧
      key.length = s.keylen.toNat ∧ (∀ i, i < key.length → key.getD i 0#8 = s.mem.read (0x100 + i))

/-- R180: HOTP's completion writes the OTP of the pipeline to OTP_BIN, OTP0 and OTP1, and nothing else: the masked window at the
offset in the HMAC of the encoded counter, modulo 1000000, as six digits. -/
def Obligations.HotpRendersThePipeline : Prop :=
  ∀ (s : State) (sel : AlgSelector) (alg : HashAlgorithm) (key : List Byte) (ctr : DWord), sel.resolve = some alg →
    s.engine = .busy (.hotp alg key ctr) → s.wait = 0 →
    let d := hmac alg key (be 8 ctr.toNat)
    let offset := (d.getD (digestLen alg - 1) 0#8).toNat % 16
    let b := fun i => (d.getD (offset + i) 0#8).toNat
    let n := (b 0 % 128 * 16777216 + b 1 * 65536 + b 2 * 256 + b 3) % 1000000
    let c := fun i => 0x30 + n / 10 ^ (5 - i) % 10
    exec (.hotp sel) s = .next { s with
      otpBin := BitVec.ofNat 20 n
      otp0 := BitVec.ofNat 32 (c 0 * 16777216 + c 1 * 65536 + c 2 * 256 + c 3)
      otp1 := BitVec.ofNat 16 (c 4 * 256 + c 5), engine := .idle }

/-- R181, whose last sentence the spec marks as derived: what HOTP writes is a function of the secret, the counter and the resolved algorithm alone: two blocks that agree on
these three give the same OTP, whatever else their registers, KEY beyond KEYLEN (R249) and earlier commands left. -/
def Obligations.HotpDependsOnItsOperandsOnly : Prop :=
  ∀ (s t : State) (sel sel' : AlgSelector) (alg : HashAlgorithm), s.engine = .idle → t.engine = .idle →
    sel.resolve = some alg → sel'.resolve = some alg →
    s.keylen.toNat ≤ s.config.keyCapacity → t.keylen.toNat ≤ t.config.keyCapacity → t.keylen = s.keylen →
    (∀ a, 0x100 ≤ a → a < 0x100 + s.keylen.toNat → t.mem.read a = s.mem.read a) → t.ctrHi = s.ctrHi → t.ctrLo = s.ctrLo →
    ∃ s' t', runCommand (.hotp sel) s = .next s' ∧ runCommand (.hotp sel') t = .next t' ∧ SameOtp s' t'

/-- R182, whose sentence on the sequence the spec marks as derived: ENC, MAC, TRUNC and FMT.R in turn, with one ALG, write the OTP registers that HOTP writes with it; and HOTP writes none
of MSG, DIGEST, VAL and TOFF. -/
def Obligations.HotpIsTheChain : Prop :=
  ∀ (s : State) (sel : AlgSelector) (alg : HashAlgorithm), s.engine = .idle → sel.resolve = some alg → s.mem.wf →
    s.keylen.toNat ≤ s.config.keyCapacity →
    ∃ s1 s2 s3 s4 t, runCommand .enc s = .next s1 ∧ runCommand (.mac sel) s1 = .next s2 ∧ runCommand (.trunc sel) s2 = .next s3 ∧
      runCommand (.fmt true) s3 = .next s4 ∧ runCommand (.hotp sel) s = .next t ∧ SameOtp s4 t ∧
      t.mem = s.mem ∧ t.val = s.val ∧ t.toff = s.toff

/-! ## Frames of the commands, in either half of their lives -/

/-- What ENC and MAC leave unchanged: every register but STATUS, every byte of memory outside MSG (ENC) or DIGEST (MAC), STATUS.ERR
but for acceptance and rejection, and STATUS.OVR but for overrun. All of memory is unchanged but for a completion, which is where
a busy engine changes. -/
def Obligations.StoringCommandsFrame : Prop :=
  ∀ (i : Instr) (s t : State) (base size : Nat), s.mem.wf →
    (i = .enc ∧ base = 0x040 ∧ size = 8) ∨ ((∃ sel, i = .mac sel) ∧ base = 0x080 ∧ size = 64) → exec i s = .next t →
    t.block = { s with mem := t.mem, engine := t.engine, err := t.err, ovr := t.ovr }.block ∧ s.SameHost t ∧
    (∀ a, a < base ∨ base + size ≤ a → t.mem.read a = s.mem.read a) ∧
    (s.engine = .idle ∨ t.engine = s.engine → t.mem = s.mem) ∧
    (s.engine ≠ .idle → t.err = s.err) ∧
    (s.engine = .idle ∨ t.engine ≠ s.engine → t.ovr = s.ovr) ∧
    (s.engine ≠ .idle → t.engine = s.engine ∧ t.ovr = true ∨ t.engine = .idle)

/-- What TRUNC, FMT and HOTP leave unchanged: every byte of memory, KEYLEN and the counter, the OTP registers (TRUNC), or VAL and
TOFF (FMT and HOTP), STATUS.ERR but for acceptance and rejection, and STATUS.OVR but for overrun. Their results too are unchanged
but for a completion, which is where a busy engine changes. -/
def Obligations.RegisterCommandsFrame : Prop :=
  ∀ (s t : State),
    (∀ sel, exec (.trunc sel) s = .next t →
      t.block = { s with val := t.val, toff := t.toff, engine := t.engine, err := t.err, ovr := t.ovr }.block ∧ s.SameHost t ∧
      (s.engine = .idle ∨ t.engine = s.engine → t.val = s.val ∧ t.toff = s.toff) ∧
      (s.engine ≠ .idle → t.err = s.err) ∧
      (s.engine = .idle ∨ t.engine ≠ s.engine → t.ovr = s.ovr) ∧
      (s.engine ≠ .idle → t.engine = s.engine ∧ t.ovr = true ∨ t.engine = .idle)) ∧
    (∀ i : Instr, (∃ r, i = .fmt r) ∨ (∃ sel, i = .hotp sel) → exec i s = .next t →
      t.block = { s with otpBin := t.otpBin, otp0 := t.otp0, otp1 := t.otp1, engine := t.engine, err := t.err, ovr := t.ovr }.block ∧
      s.SameHost t ∧
      (s.engine = .idle ∨ t.engine = s.engine → SameOtp s t) ∧
      (s.engine ≠ .idle → t.err = s.err) ∧
      (s.engine = .idle ∨ t.engine ≠ s.engine → t.ovr = s.ovr) ∧
      (s.engine ≠ .idle → t.engine = s.engine ∧ t.ovr = true ∨ t.engine = .idle))

/-! ## Whole-machine rules -/

/-- R87: when the host writes a legal word to CMD and the engine is idle, the step is the decoded command's; the host's list of
steps is one shorter, and one more of its steps has passed. A table row's word placed by `withFetchWord` is run so (log entry 4).
While no completion is due, a step is the host's next step, or lets time pass if it has none (log entries 1 and 2). -/
def Obligations.StepRunsTheWrittenCommand : Prop :=
  (∀ (s : State) (v : Word) (i : Instr) (rest : List HostStep), s.engine = .idle → s.pending = .write 0x000#12 4 v :: rest →
    decode v = .ok i → step s = exec i { s with pending := rest, wait := s.wait - 1 }) ∧
  (∀ (s : State) (v : Word) (i : Instr), decode v = .ok i →
    step (s.withFetchWord 32 v.toNat) = exec i { s with engine := .idle, wait := 0 }) ∧
  (∀ s : State, s.engine = .idle ∨ s.wait ≠ 0 →
    (∀ h rest, s.pending = h :: rest → step s = hostStep h { s with pending := rest, wait := s.wait - 1 }) ∧
    (s.pending = [] → step s = .next { s with wait := s.wait - 1 }))

/-- R89: when the completion of the command in flight is due, the step is that command's. -/
def Obligations.StepCompletesTheCommandInFlight : Prop :=
  ∀ (s : State) (snap : Snapshot), s.engine = .busy snap → s.wait = 0 →
    step s = exec snap.command s ∧ ∃ t, step s = .next t ∧ t.engine = .idle ∧ s.SameHost t

/-- R245, R88: no host step but a reset changes the snapshot of a command in flight, and until its completion the registers that
only commands write keep their values (R90, R243). -/
def Obligations.CommandInFlightIsUntouched : Prop :=
  ∀ (s t : State) (snap : Snapshot), s.engine = .busy snap → s.wait ≠ 0 → s.pending.head? ≠ some .reset → step s = .next t →
    t.engine = .busy snap ∧ t.err = s.err ∧ t.wait = s.wait - 1 ∧ t.toff = s.toff ∧ SameOtp s t

/-- R24, R25, R31, R89: a completion leaves KEYLEN, the counter, every byte of KEY, STATUS.ERR and STATUS.OVR as they are. -/
def Obligations.CompletionsLeaveTheInputs : Prop :=
  ∀ (s t : State) (snap : Snapshot), s.engine = .busy snap → s.wait = 0 → s.mem.wf → step s = .next t →
    t.keylen = s.keylen ∧ t.ctrHi = s.ctrHi ∧ t.ctrLo = s.ctrLo ∧ t.err = s.err ∧ t.ovr = s.ovr ∧
    ∀ a, 0x100 ≤ a → t.mem.read a = s.mem.read a

/-- R91, R252: a command in flight completes after finitely many steps, whatever the host does but reset: once the latency drawn
for it has run out. That a draw is a number of host steps, and that time passes when the host has nothing to do, is the model's
form of the free draw (log entry 2). -/
def Obligations.CommandInFlightCompletes : Prop :=
  ∀ (s : State) (snap : Snapshot), s.engine = .busy snap → .reset ∉ s.pending →
    ∃ t, steps (s.wait + 1) s = .next t ∧ t.engine = .idle

/-- R181, R245: a HOTP in flight writes the OTP of the operands it captured, whatever the host writes before its completion, and
whatever its latency is. -/
def Obligations.HotpInFlightWritesItsOwnOtp : Prop :=
  ∀ (s : State) (alg : HashAlgorithm) (key : List Byte) (ctr : DWord), s.engine = .busy (.hotp alg key ctr) → .reset ∉ s.pending →
    ∃ t, steps (s.wait + 1) s = .next t ∧ t.otpBin.toNat = hotpValue alg key ctr ∧
      decimalValue t.otpString = hotpValue alg key ctr

/-! ## The host -/

/-- R93, R69: a poll is repeated while the engine is busy, and ends once it is idle; it records nothing in the trace (log entry 5). -/
def Obligations.WaitEndsWithTheCommand : Prop :=
  ∀ (s : State) (rest : List HostStep), completionDue s = none → s.pending = .poll :: rest →
    ∃ t, step s = .next t ∧ t.block = s.block ∧ t.trace = s.trace ∧
      (s.engine = .idle → t.pending = rest) ∧ (s.engine ≠ .idle → t.pending = .poll :: rest)

/-- R93, R31, R64: the steps of a `key` statement leave the block with that secret, for every secret that fits in KEY. -/
def Obligations.KeyStatementLoadsTheSecret : Prop :=
  ∀ (s : State) (secret : List Byte), s.config.Legal → s.mem.wf → secret.length ≤ s.config.keyCapacity →
    ∃ t, hostSteps (Stmt.key secret).expand s = .next t ∧ t.keylen.toNat = secret.length ∧ t.secret = secret ∧
      t.block = { s with keylen := t.keylen, mem := t.mem }.block ∧ ∀ a, a < 0x100 → t.mem.read a = s.mem.read a

/-- R93, R25, R184 (a time is a 64-bit number of seconds, log entry 12): the steps of a `ctr` statement load the counter, and the host's program for a TOTP loads `floor(t / 30)` and
issues HOTP with its ALG. -/
def Obligations.CounterStatementLoadsTheCounter : Prop :=
  (∀ (s : State) (c : DWord), ∃ t, hostSteps (Stmt.ctr c).expand s = .next t ∧ t.ctrHi ++ t.ctrLo = c ∧
    t = { s with ctrHi := t.ctrHi, ctrLo := t.ctrLo }) ∧
  (∀ (s : State) (sel : AlgSelector) (alg : HashAlgorithm) (time : DWord), s.engine = .idle → sel.resolve = some alg →
    s.keylen.toNat ≤ s.config.keyCapacity →
    ∃ t key c, hostSteps ((totpProgram sel time).flatMap Stmt.expand) s = .next t ∧ t.engine = .busy (.hotp alg key c) ∧
      c.toNat = time.toNat / 30)

/-- R242: nothing must be set up: after reset alone, every legal command is accepted. -/
def Obligations.EveryCommandRunsFromReset : Prop :=
  ∀ (i : Instr), mnemonic i ≠ none → ∃ t snap, exec i State.reset = .next t ∧ t.err = .ok ∧ t.engine = .busy snap
end

