-- ==== Sys2Proof/Laws/Bytes.lean ====
section
/-! SUPPORT. The byte sequences of Machine/Bytes.lean: their lengths, their bytes and their values. -/

namespace Sys2Proof.Machine

@[simp] theorem be_length (n v : Nat) : (be n v).length = n := by
  induction n with
  | zero => rfl
  | succ n ih => simp [be, ih]

@[simp] theorem zeros_length (n : Nat) : (zeros n).length = n := by simp [zeros]

@[simp] theorem chunks_length {α : Type} (size count : Nat) (l : List α) : (chunks size count l).length = count := by
  induction count generalizing l with
  | zero => rfl
  | succ count ih => simp [chunks, ih]

/-- Byte `i` of `be_n(v)` (R10). -/
theorem be_getD (n v i : Nat) (h : i < n) : (be n v).getD i 0#8 = BitVec.ofNat 8 (v / 2 ^ (8 * (n - 1 - i))) := by
  induction n generalizing i with
  | zero => omega
  | succ n ih =>
    cases i with
    | zero => simp [be, Nat.shiftRight_eq_div_pow]
    | succ i => rw [be, List.getD_cons_succ, ih i (by omega)]; congr 4; omega

/-- A value's bytes after those that gave `n`. -/
theorem foldl_beval (bs : List Byte) (n : Nat) :
    bs.foldl (fun value b => value * 256 + b.toNat) n = n * 256 ^ bs.length + beval bs := by
  induction bs generalizing n with
  | nil => simp [beval]
  | cons b bs ih =>
    simp only [List.foldl, beval, List.length_cons, Nat.zero_mul, Nat.zero_add]
    rw [ih, ih]; ring

/-- The first byte is the most significant (R10). -/
theorem beval_cons (b : Byte) (bs : List Byte) : beval (b :: bs) = b.toNat * 256 ^ bs.length + beval bs := by
  rw [beval, List.foldl, foldl_beval]; simp

theorem beval_lt (bs : List Byte) : beval bs < 256 ^ bs.length := by
  induction bs with
  | nil => simp [beval]
  | cons b bs ih =>
    rw [beval_cons, List.length_cons, pow_succ]
    have := b.isLt
    nlinarith

/-- The pieces of a sequence. -/
theorem chunks_getD {α : Type} (size count : Nat) (l : List α) (i : Nat) (h : i < count) :
    (chunks size count l).getD i [] = (l.drop (size * i)).take size := by
  induction count generalizing l i with
  | zero => omega
  | succ count ih =>
    cases i with
    | zero => simp [chunks]
    | succ i => rw [chunks, List.getD_cons_succ, ih _ _ (by omega), List.drop_drop]; congr 2; ring

end Sys2Proof.Machine
end

