-- ==== Sys2Proof/Laws/State.lean ====
section
/-! SUPPORT. One lemma per field of State per named update of Machine/Ops.lean, each true by definition, and the same for render and for a write to STATUS. -/

namespace Sys2Proof.Machine.State
variable (s : State)

/-! ### reject -/

@[simp] theorem reject_err (e : ErrorCode) : (s.reject e).err = e := rfl
@[simp] theorem reject_ovr (e : ErrorCode) : (s.reject e).ovr = s.ovr := rfl
@[simp] theorem reject_keylen (e : ErrorCode) : (s.reject e).keylen = s.keylen := rfl
@[simp] theorem reject_ctrHi (e : ErrorCode) : (s.reject e).ctrHi = s.ctrHi := rfl
@[simp] theorem reject_ctrLo (e : ErrorCode) : (s.reject e).ctrLo = s.ctrLo := rfl
@[simp] theorem reject_val (e : ErrorCode) : (s.reject e).val = s.val := rfl
@[simp] theorem reject_toff (e : ErrorCode) : (s.reject e).toff = s.toff := rfl
@[simp] theorem reject_otpBin (e : ErrorCode) : (s.reject e).otpBin = s.otpBin := rfl
@[simp] theorem reject_otp0 (e : ErrorCode) : (s.reject e).otp0 = s.otp0 := rfl
@[simp] theorem reject_otp1 (e : ErrorCode) : (s.reject e).otp1 = s.otp1 := rfl
@[simp] theorem reject_mem (e : ErrorCode) : (s.reject e).mem = s.mem := rfl
@[simp] theorem reject_engine (e : ErrorCode) : (s.reject e).engine = s.engine := rfl
@[simp] theorem reject_config (e : ErrorCode) : (s.reject e).config = s.config := rfl
@[simp] theorem reject_wait (e : ErrorCode) : (s.reject e).wait = s.wait := rfl
@[simp] theorem reject_draws (e : ErrorCode) : (s.reject e).draws = s.draws := rfl
@[simp] theorem reject_pending (e : ErrorCode) : (s.reject e).pending = s.pending := rfl
@[simp] theorem reject_trace (e : ErrorCode) : (s.reject e).trace = s.trace := rfl

/-! ### accept -/

@[simp] theorem accept_err (snap : Snapshot) : (s.accept snap).err = .ok := rfl
@[simp] theorem accept_ovr (snap : Snapshot) : (s.accept snap).ovr = s.ovr := rfl
@[simp] theorem accept_keylen (snap : Snapshot) : (s.accept snap).keylen = s.keylen := rfl
@[simp] theorem accept_ctrHi (snap : Snapshot) : (s.accept snap).ctrHi = s.ctrHi := rfl
@[simp] theorem accept_ctrLo (snap : Snapshot) : (s.accept snap).ctrLo = s.ctrLo := rfl
@[simp] theorem accept_val (snap : Snapshot) : (s.accept snap).val = s.val := rfl
@[simp] theorem accept_toff (snap : Snapshot) : (s.accept snap).toff = s.toff := rfl
@[simp] theorem accept_otpBin (snap : Snapshot) : (s.accept snap).otpBin = s.otpBin := rfl
@[simp] theorem accept_otp0 (snap : Snapshot) : (s.accept snap).otp0 = s.otp0 := rfl
@[simp] theorem accept_otp1 (snap : Snapshot) : (s.accept snap).otp1 = s.otp1 := rfl
@[simp] theorem accept_mem (snap : Snapshot) : (s.accept snap).mem = s.mem := rfl
@[simp] theorem accept_engine (snap : Snapshot) : (s.accept snap).engine = .busy snap := rfl
@[simp] theorem accept_config (snap : Snapshot) : (s.accept snap).config = s.config := rfl
@[simp] theorem accept_wait (snap : Snapshot) : (s.accept snap).wait = Config.latency s.draws := rfl
@[simp] theorem accept_draws (snap : Snapshot) : (s.accept snap).draws = s.draws + 1 := rfl
@[simp] theorem accept_pending (snap : Snapshot) : (s.accept snap).pending = s.pending := rfl
@[simp] theorem accept_trace (snap : Snapshot) : (s.accept snap).trace = s.trace := rfl

/-! ### overrun -/

@[simp] theorem overrun_err : s.overrun.err = s.err := rfl
@[simp] theorem overrun_ovr : s.overrun.ovr = true := rfl
@[simp] theorem overrun_keylen : s.overrun.keylen = s.keylen := rfl
@[simp] theorem overrun_ctrHi : s.overrun.ctrHi = s.ctrHi := rfl
@[simp] theorem overrun_ctrLo : s.overrun.ctrLo = s.ctrLo := rfl
@[simp] theorem overrun_val : s.overrun.val = s.val := rfl
@[simp] theorem overrun_toff : s.overrun.toff = s.toff := rfl
@[simp] theorem overrun_otpBin : s.overrun.otpBin = s.otpBin := rfl
@[simp] theorem overrun_otp0 : s.overrun.otp0 = s.otp0 := rfl
@[simp] theorem overrun_otp1 : s.overrun.otp1 = s.otp1 := rfl
@[simp] theorem overrun_mem : s.overrun.mem = s.mem := rfl
@[simp] theorem overrun_engine : s.overrun.engine = s.engine := rfl
@[simp] theorem overrun_config : s.overrun.config = s.config := rfl
@[simp] theorem overrun_wait : s.overrun.wait = s.wait := rfl
@[simp] theorem overrun_draws : s.overrun.draws = s.draws := rfl
@[simp] theorem overrun_pending : s.overrun.pending = s.pending := rfl
@[simp] theorem overrun_trace : s.overrun.trace = s.trace := rfl

/-! ### retire -/

@[simp] theorem retire_err : s.retire.err = s.err := rfl
@[simp] theorem retire_ovr : s.retire.ovr = s.ovr := rfl
@[simp] theorem retire_keylen : s.retire.keylen = s.keylen := rfl
@[simp] theorem retire_ctrHi : s.retire.ctrHi = s.ctrHi := rfl
@[simp] theorem retire_ctrLo : s.retire.ctrLo = s.ctrLo := rfl
@[simp] theorem retire_val : s.retire.val = s.val := rfl
@[simp] theorem retire_toff : s.retire.toff = s.toff := rfl
@[simp] theorem retire_otpBin : s.retire.otpBin = s.otpBin := rfl
@[simp] theorem retire_otp0 : s.retire.otp0 = s.otp0 := rfl
@[simp] theorem retire_otp1 : s.retire.otp1 = s.otp1 := rfl
@[simp] theorem retire_mem : s.retire.mem = s.mem := rfl
@[simp] theorem retire_engine : s.retire.engine = .idle := rfl
@[simp] theorem retire_config : s.retire.config = s.config := rfl
@[simp] theorem retire_wait : s.retire.wait = s.wait := rfl
@[simp] theorem retire_draws : s.retire.draws = s.draws := rfl
@[simp] theorem retire_pending : s.retire.pending = s.pending := rfl
@[simp] theorem retire_trace : s.retire.trace = s.trace := rfl

/-! ### clearOverrun -/

@[simp] theorem clearOverrun_err : s.clearOverrun.err = s.err := rfl
@[simp] theorem clearOverrun_ovr : s.clearOverrun.ovr = false := rfl
@[simp] theorem clearOverrun_keylen : s.clearOverrun.keylen = s.keylen := rfl
@[simp] theorem clearOverrun_ctrHi : s.clearOverrun.ctrHi = s.ctrHi := rfl
@[simp] theorem clearOverrun_ctrLo : s.clearOverrun.ctrLo = s.ctrLo := rfl
@[simp] theorem clearOverrun_val : s.clearOverrun.val = s.val := rfl
@[simp] theorem clearOverrun_toff : s.clearOverrun.toff = s.toff := rfl
@[simp] theorem clearOverrun_otpBin : s.clearOverrun.otpBin = s.otpBin := rfl
@[simp] theorem clearOverrun_otp0 : s.clearOverrun.otp0 = s.otp0 := rfl
@[simp] theorem clearOverrun_otp1 : s.clearOverrun.otp1 = s.otp1 := rfl
@[simp] theorem clearOverrun_mem : s.clearOverrun.mem = s.mem := rfl
@[simp] theorem clearOverrun_engine : s.clearOverrun.engine = s.engine := rfl
@[simp] theorem clearOverrun_config : s.clearOverrun.config = s.config := rfl
@[simp] theorem clearOverrun_wait : s.clearOverrun.wait = s.wait := rfl
@[simp] theorem clearOverrun_draws : s.clearOverrun.draws = s.draws := rfl
@[simp] theorem clearOverrun_pending : s.clearOverrun.pending = s.pending := rfl
@[simp] theorem clearOverrun_trace : s.clearOverrun.trace = s.trace := rfl

/-! ### setKeylen -/

@[simp] theorem setKeylen_err (v : Word) : (s.setKeylen v).err = s.err := rfl
@[simp] theorem setKeylen_ovr (v : Word) : (s.setKeylen v).ovr = s.ovr := rfl
@[simp] theorem setKeylen_keylen (v : Word) : (s.setKeylen v).keylen = v := rfl
@[simp] theorem setKeylen_ctrHi (v : Word) : (s.setKeylen v).ctrHi = s.ctrHi := rfl
@[simp] theorem setKeylen_ctrLo (v : Word) : (s.setKeylen v).ctrLo = s.ctrLo := rfl
@[simp] theorem setKeylen_val (v : Word) : (s.setKeylen v).val = s.val := rfl
@[simp] theorem setKeylen_toff (v : Word) : (s.setKeylen v).toff = s.toff := rfl
@[simp] theorem setKeylen_otpBin (v : Word) : (s.setKeylen v).otpBin = s.otpBin := rfl
@[simp] theorem setKeylen_otp0 (v : Word) : (s.setKeylen v).otp0 = s.otp0 := rfl
@[simp] theorem setKeylen_otp1 (v : Word) : (s.setKeylen v).otp1 = s.otp1 := rfl
@[simp] theorem setKeylen_mem (v : Word) : (s.setKeylen v).mem = s.mem := rfl
@[simp] theorem setKeylen_engine (v : Word) : (s.setKeylen v).engine = s.engine := rfl
@[simp] theorem setKeylen_config (v : Word) : (s.setKeylen v).config = s.config := rfl
@[simp] theorem setKeylen_wait (v : Word) : (s.setKeylen v).wait = s.wait := rfl
@[simp] theorem setKeylen_draws (v : Word) : (s.setKeylen v).draws = s.draws := rfl
@[simp] theorem setKeylen_pending (v : Word) : (s.setKeylen v).pending = s.pending := rfl
@[simp] theorem setKeylen_trace (v : Word) : (s.setKeylen v).trace = s.trace := rfl

/-! ### setCtrHi -/

@[simp] theorem setCtrHi_err (v : Word) : (s.setCtrHi v).err = s.err := rfl
@[simp] theorem setCtrHi_ovr (v : Word) : (s.setCtrHi v).ovr = s.ovr := rfl
@[simp] theorem setCtrHi_keylen (v : Word) : (s.setCtrHi v).keylen = s.keylen := rfl
@[simp] theorem setCtrHi_ctrHi (v : Word) : (s.setCtrHi v).ctrHi = v := rfl
@[simp] theorem setCtrHi_ctrLo (v : Word) : (s.setCtrHi v).ctrLo = s.ctrLo := rfl
@[simp] theorem setCtrHi_val (v : Word) : (s.setCtrHi v).val = s.val := rfl
@[simp] theorem setCtrHi_toff (v : Word) : (s.setCtrHi v).toff = s.toff := rfl
@[simp] theorem setCtrHi_otpBin (v : Word) : (s.setCtrHi v).otpBin = s.otpBin := rfl
@[simp] theorem setCtrHi_otp0 (v : Word) : (s.setCtrHi v).otp0 = s.otp0 := rfl
@[simp] theorem setCtrHi_otp1 (v : Word) : (s.setCtrHi v).otp1 = s.otp1 := rfl
@[simp] theorem setCtrHi_mem (v : Word) : (s.setCtrHi v).mem = s.mem := rfl
@[simp] theorem setCtrHi_engine (v : Word) : (s.setCtrHi v).engine = s.engine := rfl
@[simp] theorem setCtrHi_config (v : Word) : (s.setCtrHi v).config = s.config := rfl
@[simp] theorem setCtrHi_wait (v : Word) : (s.setCtrHi v).wait = s.wait := rfl
@[simp] theorem setCtrHi_draws (v : Word) : (s.setCtrHi v).draws = s.draws := rfl
@[simp] theorem setCtrHi_pending (v : Word) : (s.setCtrHi v).pending = s.pending := rfl
@[simp] theorem setCtrHi_trace (v : Word) : (s.setCtrHi v).trace = s.trace := rfl

/-! ### setCtrLo -/

@[simp] theorem setCtrLo_err (v : Word) : (s.setCtrLo v).err = s.err := rfl
@[simp] theorem setCtrLo_ovr (v : Word) : (s.setCtrLo v).ovr = s.ovr := rfl
@[simp] theorem setCtrLo_keylen (v : Word) : (s.setCtrLo v).keylen = s.keylen := rfl
@[simp] theorem setCtrLo_ctrHi (v : Word) : (s.setCtrLo v).ctrHi = s.ctrHi := rfl
@[simp] theorem setCtrLo_ctrLo (v : Word) : (s.setCtrLo v).ctrLo = v := rfl
@[simp] theorem setCtrLo_val (v : Word) : (s.setCtrLo v).val = s.val := rfl
@[simp] theorem setCtrLo_toff (v : Word) : (s.setCtrLo v).toff = s.toff := rfl
@[simp] theorem setCtrLo_otpBin (v : Word) : (s.setCtrLo v).otpBin = s.otpBin := rfl
@[simp] theorem setCtrLo_otp0 (v : Word) : (s.setCtrLo v).otp0 = s.otp0 := rfl
@[simp] theorem setCtrLo_otp1 (v : Word) : (s.setCtrLo v).otp1 = s.otp1 := rfl
@[simp] theorem setCtrLo_mem (v : Word) : (s.setCtrLo v).mem = s.mem := rfl
@[simp] theorem setCtrLo_engine (v : Word) : (s.setCtrLo v).engine = s.engine := rfl
@[simp] theorem setCtrLo_config (v : Word) : (s.setCtrLo v).config = s.config := rfl
@[simp] theorem setCtrLo_wait (v : Word) : (s.setCtrLo v).wait = s.wait := rfl
@[simp] theorem setCtrLo_draws (v : Word) : (s.setCtrLo v).draws = s.draws := rfl
@[simp] theorem setCtrLo_pending (v : Word) : (s.setCtrLo v).pending = s.pending := rfl
@[simp] theorem setCtrLo_trace (v : Word) : (s.setCtrLo v).trace = s.trace := rfl

/-! ### setVal -/

@[simp] theorem setVal_err (v : Word) : (s.setVal v).err = s.err := rfl
@[simp] theorem setVal_ovr (v : Word) : (s.setVal v).ovr = s.ovr := rfl
@[simp] theorem setVal_keylen (v : Word) : (s.setVal v).keylen = s.keylen := rfl
@[simp] theorem setVal_ctrHi (v : Word) : (s.setVal v).ctrHi = s.ctrHi := rfl
@[simp] theorem setVal_ctrLo (v : Word) : (s.setVal v).ctrLo = s.ctrLo := rfl
@[simp] theorem setVal_val (v : Word) : (s.setVal v).val = v := rfl
@[simp] theorem setVal_toff (v : Word) : (s.setVal v).toff = s.toff := rfl
@[simp] theorem setVal_otpBin (v : Word) : (s.setVal v).otpBin = s.otpBin := rfl
@[simp] theorem setVal_otp0 (v : Word) : (s.setVal v).otp0 = s.otp0 := rfl
@[simp] theorem setVal_otp1 (v : Word) : (s.setVal v).otp1 = s.otp1 := rfl
@[simp] theorem setVal_mem (v : Word) : (s.setVal v).mem = s.mem := rfl
@[simp] theorem setVal_engine (v : Word) : (s.setVal v).engine = s.engine := rfl
@[simp] theorem setVal_config (v : Word) : (s.setVal v).config = s.config := rfl
@[simp] theorem setVal_wait (v : Word) : (s.setVal v).wait = s.wait := rfl
@[simp] theorem setVal_draws (v : Word) : (s.setVal v).draws = s.draws := rfl
@[simp] theorem setVal_pending (v : Word) : (s.setVal v).pending = s.pending := rfl
@[simp] theorem setVal_trace (v : Word) : (s.setVal v).trace = s.trace := rfl

/-! ### setToff -/

@[simp] theorem setToff_err (v : BitVec 4) : (s.setToff v).err = s.err := rfl
@[simp] theorem setToff_ovr (v : BitVec 4) : (s.setToff v).ovr = s.ovr := rfl
@[simp] theorem setToff_keylen (v : BitVec 4) : (s.setToff v).keylen = s.keylen := rfl
@[simp] theorem setToff_ctrHi (v : BitVec 4) : (s.setToff v).ctrHi = s.ctrHi := rfl
@[simp] theorem setToff_ctrLo (v : BitVec 4) : (s.setToff v).ctrLo = s.ctrLo := rfl
@[simp] theorem setToff_val (v : BitVec 4) : (s.setToff v).val = s.val := rfl
@[simp] theorem setToff_toff (v : BitVec 4) : (s.setToff v).toff = v := rfl
@[simp] theorem setToff_otpBin (v : BitVec 4) : (s.setToff v).otpBin = s.otpBin := rfl
@[simp] theorem setToff_otp0 (v : BitVec 4) : (s.setToff v).otp0 = s.otp0 := rfl
@[simp] theorem setToff_otp1 (v : BitVec 4) : (s.setToff v).otp1 = s.otp1 := rfl
@[simp] theorem setToff_mem (v : BitVec 4) : (s.setToff v).mem = s.mem := rfl
@[simp] theorem setToff_engine (v : BitVec 4) : (s.setToff v).engine = s.engine := rfl
@[simp] theorem setToff_config (v : BitVec 4) : (s.setToff v).config = s.config := rfl
@[simp] theorem setToff_wait (v : BitVec 4) : (s.setToff v).wait = s.wait := rfl
@[simp] theorem setToff_draws (v : BitVec 4) : (s.setToff v).draws = s.draws := rfl
@[simp] theorem setToff_pending (v : BitVec 4) : (s.setToff v).pending = s.pending := rfl
@[simp] theorem setToff_trace (v : BitVec 4) : (s.setToff v).trace = s.trace := rfl

/-! ### setOtp -/

@[simp] theorem setOtp_err (n : BitVec 20) (x : Word) (y : BitVec 16) : (s.setOtp n x y).err = s.err := rfl
@[simp] theorem setOtp_ovr (n : BitVec 20) (x : Word) (y : BitVec 16) : (s.setOtp n x y).ovr = s.ovr := rfl
@[simp] theorem setOtp_keylen (n : BitVec 20) (x : Word) (y : BitVec 16) : (s.setOtp n x y).keylen = s.keylen := rfl
@[simp] theorem setOtp_ctrHi (n : BitVec 20) (x : Word) (y : BitVec 16) : (s.setOtp n x y).ctrHi = s.ctrHi := rfl
@[simp] theorem setOtp_ctrLo (n : BitVec 20) (x : Word) (y : BitVec 16) : (s.setOtp n x y).ctrLo = s.ctrLo := rfl
@[simp] theorem setOtp_val (n : BitVec 20) (x : Word) (y : BitVec 16) : (s.setOtp n x y).val = s.val := rfl
@[simp] theorem setOtp_toff (n : BitVec 20) (x : Word) (y : BitVec 16) : (s.setOtp n x y).toff = s.toff := rfl
@[simp] theorem setOtp_otpBin (n : BitVec 20) (x : Word) (y : BitVec 16) : (s.setOtp n x y).otpBin = n := rfl
@[simp] theorem setOtp_otp0 (n : BitVec 20) (x : Word) (y : BitVec 16) : (s.setOtp n x y).otp0 = x := rfl
@[simp] theorem setOtp_otp1 (n : BitVec 20) (x : Word) (y : BitVec 16) : (s.setOtp n x y).otp1 = y := rfl
@[simp] theorem setOtp_mem (n : BitVec 20) (x : Word) (y : BitVec 16) : (s.setOtp n x y).mem = s.mem := rfl
@[simp] theorem setOtp_engine (n : BitVec 20) (x : Word) (y : BitVec 16) : (s.setOtp n x y).engine = s.engine := rfl
@[simp] theorem setOtp_config (n : BitVec 20) (x : Word) (y : BitVec 16) : (s.setOtp n x y).config = s.config := rfl
@[simp] theorem setOtp_wait (n : BitVec 20) (x : Word) (y : BitVec 16) : (s.setOtp n x y).wait = s.wait := rfl
@[simp] theorem setOtp_draws (n : BitVec 20) (x : Word) (y : BitVec 16) : (s.setOtp n x y).draws = s.draws := rfl
@[simp] theorem setOtp_pending (n : BitVec 20) (x : Word) (y : BitVec 16) : (s.setOtp n x y).pending = s.pending := rfl
@[simp] theorem setOtp_trace (n : BitVec 20) (x : Word) (y : BitVec 16) : (s.setOtp n x y).trace = s.trace := rfl

/-! ### storeBytes -/

@[simp] theorem storeBytes_err (a : Nat) (bs : List Byte) : (s.storeBytes a bs).err = s.err := rfl
@[simp] theorem storeBytes_ovr (a : Nat) (bs : List Byte) : (s.storeBytes a bs).ovr = s.ovr := rfl
@[simp] theorem storeBytes_keylen (a : Nat) (bs : List Byte) : (s.storeBytes a bs).keylen = s.keylen := rfl
@[simp] theorem storeBytes_ctrHi (a : Nat) (bs : List Byte) : (s.storeBytes a bs).ctrHi = s.ctrHi := rfl
@[simp] theorem storeBytes_ctrLo (a : Nat) (bs : List Byte) : (s.storeBytes a bs).ctrLo = s.ctrLo := rfl
@[simp] theorem storeBytes_val (a : Nat) (bs : List Byte) : (s.storeBytes a bs).val = s.val := rfl
@[simp] theorem storeBytes_toff (a : Nat) (bs : List Byte) : (s.storeBytes a bs).toff = s.toff := rfl
@[simp] theorem storeBytes_otpBin (a : Nat) (bs : List Byte) : (s.storeBytes a bs).otpBin = s.otpBin := rfl
@[simp] theorem storeBytes_otp0 (a : Nat) (bs : List Byte) : (s.storeBytes a bs).otp0 = s.otp0 := rfl
@[simp] theorem storeBytes_otp1 (a : Nat) (bs : List Byte) : (s.storeBytes a bs).otp1 = s.otp1 := rfl
@[simp] theorem storeBytes_mem (a : Nat) (bs : List Byte) : (s.storeBytes a bs).mem = s.mem.writeBytes a bs := rfl
@[simp] theorem storeBytes_engine (a : Nat) (bs : List Byte) : (s.storeBytes a bs).engine = s.engine := rfl
@[simp] theorem storeBytes_config (a : Nat) (bs : List Byte) : (s.storeBytes a bs).config = s.config := rfl
@[simp] theorem storeBytes_wait (a : Nat) (bs : List Byte) : (s.storeBytes a bs).wait = s.wait := rfl
@[simp] theorem storeBytes_draws (a : Nat) (bs : List Byte) : (s.storeBytes a bs).draws = s.draws := rfl
@[simp] theorem storeBytes_pending (a : Nat) (bs : List Byte) : (s.storeBytes a bs).pending = s.pending := rfl
@[simp] theorem storeBytes_trace (a : Nat) (bs : List Byte) : (s.storeBytes a bs).trace = s.trace := rfl

/-! ### storeWord -/

@[simp] theorem storeWord_err (a : Nat) (v : Word) : (s.storeWord a v).err = s.err := rfl
@[simp] theorem storeWord_ovr (a : Nat) (v : Word) : (s.storeWord a v).ovr = s.ovr := rfl
@[simp] theorem storeWord_keylen (a : Nat) (v : Word) : (s.storeWord a v).keylen = s.keylen := rfl
@[simp] theorem storeWord_ctrHi (a : Nat) (v : Word) : (s.storeWord a v).ctrHi = s.ctrHi := rfl
@[simp] theorem storeWord_ctrLo (a : Nat) (v : Word) : (s.storeWord a v).ctrLo = s.ctrLo := rfl
@[simp] theorem storeWord_val (a : Nat) (v : Word) : (s.storeWord a v).val = s.val := rfl
@[simp] theorem storeWord_toff (a : Nat) (v : Word) : (s.storeWord a v).toff = s.toff := rfl
@[simp] theorem storeWord_otpBin (a : Nat) (v : Word) : (s.storeWord a v).otpBin = s.otpBin := rfl
@[simp] theorem storeWord_otp0 (a : Nat) (v : Word) : (s.storeWord a v).otp0 = s.otp0 := rfl
@[simp] theorem storeWord_otp1 (a : Nat) (v : Word) : (s.storeWord a v).otp1 = s.otp1 := rfl
@[simp] theorem storeWord_mem (a : Nat) (v : Word) : (s.storeWord a v).mem = s.mem.writeWord a v := rfl
@[simp] theorem storeWord_engine (a : Nat) (v : Word) : (s.storeWord a v).engine = s.engine := rfl
@[simp] theorem storeWord_config (a : Nat) (v : Word) : (s.storeWord a v).config = s.config := rfl
@[simp] theorem storeWord_wait (a : Nat) (v : Word) : (s.storeWord a v).wait = s.wait := rfl
@[simp] theorem storeWord_draws (a : Nat) (v : Word) : (s.storeWord a v).draws = s.draws := rfl
@[simp] theorem storeWord_pending (a : Nat) (v : Word) : (s.storeWord a v).pending = s.pending := rfl
@[simp] theorem storeWord_trace (a : Nat) (v : Word) : (s.storeWord a v).trace = s.trace := rfl

/-! ### tick -/

@[simp] theorem tick_err : s.tick.err = s.err := rfl
@[simp] theorem tick_ovr : s.tick.ovr = s.ovr := rfl
@[simp] theorem tick_keylen : s.tick.keylen = s.keylen := rfl
@[simp] theorem tick_ctrHi : s.tick.ctrHi = s.ctrHi := rfl
@[simp] theorem tick_ctrLo : s.tick.ctrLo = s.ctrLo := rfl
@[simp] theorem tick_val : s.tick.val = s.val := rfl
@[simp] theorem tick_toff : s.tick.toff = s.toff := rfl
@[simp] theorem tick_otpBin : s.tick.otpBin = s.otpBin := rfl
@[simp] theorem tick_otp0 : s.tick.otp0 = s.otp0 := rfl
@[simp] theorem tick_otp1 : s.tick.otp1 = s.otp1 := rfl
@[simp] theorem tick_mem : s.tick.mem = s.mem := rfl
@[simp] theorem tick_engine : s.tick.engine = s.engine := rfl
@[simp] theorem tick_config : s.tick.config = s.config := rfl
@[simp] theorem tick_wait : s.tick.wait = s.wait - 1 := rfl
@[simp] theorem tick_draws : s.tick.draws = s.draws := rfl
@[simp] theorem tick_pending : s.tick.pending = s.pending := rfl
@[simp] theorem tick_trace : s.tick.trace = s.trace := rfl

/-! ### beginHostStep -/

@[simp] theorem beginHostStep_err (rest : List HostStep) : (s.beginHostStep rest).err = s.err := rfl
@[simp] theorem beginHostStep_ovr (rest : List HostStep) : (s.beginHostStep rest).ovr = s.ovr := rfl
@[simp] theorem beginHostStep_keylen (rest : List HostStep) : (s.beginHostStep rest).keylen = s.keylen := rfl
@[simp] theorem beginHostStep_ctrHi (rest : List HostStep) : (s.beginHostStep rest).ctrHi = s.ctrHi := rfl
@[simp] theorem beginHostStep_ctrLo (rest : List HostStep) : (s.beginHostStep rest).ctrLo = s.ctrLo := rfl
@[simp] theorem beginHostStep_val (rest : List HostStep) : (s.beginHostStep rest).val = s.val := rfl
@[simp] theorem beginHostStep_toff (rest : List HostStep) : (s.beginHostStep rest).toff = s.toff := rfl
@[simp] theorem beginHostStep_otpBin (rest : List HostStep) : (s.beginHostStep rest).otpBin = s.otpBin := rfl
@[simp] theorem beginHostStep_otp0 (rest : List HostStep) : (s.beginHostStep rest).otp0 = s.otp0 := rfl
@[simp] theorem beginHostStep_otp1 (rest : List HostStep) : (s.beginHostStep rest).otp1 = s.otp1 := rfl
@[simp] theorem beginHostStep_mem (rest : List HostStep) : (s.beginHostStep rest).mem = s.mem := rfl
@[simp] theorem beginHostStep_engine (rest : List HostStep) : (s.beginHostStep rest).engine = s.engine := rfl
@[simp] theorem beginHostStep_config (rest : List HostStep) : (s.beginHostStep rest).config = s.config := rfl
@[simp] theorem beginHostStep_wait (rest : List HostStep) : (s.beginHostStep rest).wait = s.wait - 1 := rfl
@[simp] theorem beginHostStep_draws (rest : List HostStep) : (s.beginHostStep rest).draws = s.draws := rfl
@[simp] theorem beginHostStep_pending (rest : List HostStep) : (s.beginHostStep rest).pending = rest := rfl
@[simp] theorem beginHostStep_trace (rest : List HostStep) : (s.beginHostStep rest).trace = s.trace := rfl

/-! ### requeue -/

@[simp] theorem requeue_err (h : HostStep) : (s.requeue h).err = s.err := rfl
@[simp] theorem requeue_ovr (h : HostStep) : (s.requeue h).ovr = s.ovr := rfl
@[simp] theorem requeue_keylen (h : HostStep) : (s.requeue h).keylen = s.keylen := rfl
@[simp] theorem requeue_ctrHi (h : HostStep) : (s.requeue h).ctrHi = s.ctrHi := rfl
@[simp] theorem requeue_ctrLo (h : HostStep) : (s.requeue h).ctrLo = s.ctrLo := rfl
@[simp] theorem requeue_val (h : HostStep) : (s.requeue h).val = s.val := rfl
@[simp] theorem requeue_toff (h : HostStep) : (s.requeue h).toff = s.toff := rfl
@[simp] theorem requeue_otpBin (h : HostStep) : (s.requeue h).otpBin = s.otpBin := rfl
@[simp] theorem requeue_otp0 (h : HostStep) : (s.requeue h).otp0 = s.otp0 := rfl
@[simp] theorem requeue_otp1 (h : HostStep) : (s.requeue h).otp1 = s.otp1 := rfl
@[simp] theorem requeue_mem (h : HostStep) : (s.requeue h).mem = s.mem := rfl
@[simp] theorem requeue_engine (h : HostStep) : (s.requeue h).engine = s.engine := rfl
@[simp] theorem requeue_config (h : HostStep) : (s.requeue h).config = s.config := rfl
@[simp] theorem requeue_wait (h : HostStep) : (s.requeue h).wait = s.wait := rfl
@[simp] theorem requeue_draws (h : HostStep) : (s.requeue h).draws = s.draws := rfl
@[simp] theorem requeue_pending (h : HostStep) : (s.requeue h).pending = h :: s.pending := rfl
@[simp] theorem requeue_trace (h : HostStep) : (s.requeue h).trace = s.trace := rfl

/-! ### respond -/

@[simp] theorem respond_err (r : BusResponse) : (s.respond r).err = s.err := rfl
@[simp] theorem respond_ovr (r : BusResponse) : (s.respond r).ovr = s.ovr := rfl
@[simp] theorem respond_keylen (r : BusResponse) : (s.respond r).keylen = s.keylen := rfl
@[simp] theorem respond_ctrHi (r : BusResponse) : (s.respond r).ctrHi = s.ctrHi := rfl
@[simp] theorem respond_ctrLo (r : BusResponse) : (s.respond r).ctrLo = s.ctrLo := rfl
@[simp] theorem respond_val (r : BusResponse) : (s.respond r).val = s.val := rfl
@[simp] theorem respond_toff (r : BusResponse) : (s.respond r).toff = s.toff := rfl
@[simp] theorem respond_otpBin (r : BusResponse) : (s.respond r).otpBin = s.otpBin := rfl
@[simp] theorem respond_otp0 (r : BusResponse) : (s.respond r).otp0 = s.otp0 := rfl
@[simp] theorem respond_otp1 (r : BusResponse) : (s.respond r).otp1 = s.otp1 := rfl
@[simp] theorem respond_mem (r : BusResponse) : (s.respond r).mem = s.mem := rfl
@[simp] theorem respond_engine (r : BusResponse) : (s.respond r).engine = s.engine := rfl
@[simp] theorem respond_config (r : BusResponse) : (s.respond r).config = s.config := rfl
@[simp] theorem respond_wait (r : BusResponse) : (s.respond r).wait = s.wait := rfl
@[simp] theorem respond_draws (r : BusResponse) : (s.respond r).draws = s.draws := rfl
@[simp] theorem respond_pending (r : BusResponse) : (s.respond r).pending = s.pending := rfl
@[simp] theorem respond_trace (r : BusResponse) : (s.respond r).trace = s.trace ++ [r] := rfl

/-! ### hardReset -/

@[simp] theorem hardReset_err : s.hardReset.err = .ok := rfl
@[simp] theorem hardReset_ovr : s.hardReset.ovr = false := rfl
@[simp] theorem hardReset_keylen : s.hardReset.keylen = 0#32 := rfl
@[simp] theorem hardReset_ctrHi : s.hardReset.ctrHi = 0#32 := rfl
@[simp] theorem hardReset_ctrLo : s.hardReset.ctrLo = 0#32 := rfl
@[simp] theorem hardReset_val : s.hardReset.val = 0#32 := rfl
@[simp] theorem hardReset_toff : s.hardReset.toff = 0#4 := rfl
@[simp] theorem hardReset_otpBin : s.hardReset.otpBin = 0#20 := rfl
@[simp] theorem hardReset_otp0 : s.hardReset.otp0 = 0#32 := rfl
@[simp] theorem hardReset_otp1 : s.hardReset.otp1 = 0#16 := rfl
@[simp] theorem hardReset_mem : s.hardReset.mem = [] := rfl
@[simp] theorem hardReset_engine : s.hardReset.engine = .idle := rfl
@[simp] theorem hardReset_config : s.hardReset.config = s.config := rfl
@[simp] theorem hardReset_wait : s.hardReset.wait = 0 := rfl
@[simp] theorem hardReset_draws : s.hardReset.draws = s.draws := rfl
@[simp] theorem hardReset_pending : s.hardReset.pending = s.pending := rfl
@[simp] theorem hardReset_trace : s.hardReset.trace = s.trace := rfl

/-! ### render -/

@[simp] theorem render_err (n : Nat) : (render n s).err = s.err := rfl
@[simp] theorem render_ovr (n : Nat) : (render n s).ovr = s.ovr := rfl
@[simp] theorem render_keylen (n : Nat) : (render n s).keylen = s.keylen := rfl
@[simp] theorem render_ctrHi (n : Nat) : (render n s).ctrHi = s.ctrHi := rfl
@[simp] theorem render_ctrLo (n : Nat) : (render n s).ctrLo = s.ctrLo := rfl
@[simp] theorem render_val (n : Nat) : (render n s).val = s.val := rfl
@[simp] theorem render_toff (n : Nat) : (render n s).toff = s.toff := rfl
@[simp] theorem render_otpBin (n : Nat) : (render n s).otpBin = BitVec.ofNat 20 n := rfl
@[simp] theorem render_otp0 (n : Nat) : (render n s).otp0 = otpChars03 n := rfl
@[simp] theorem render_otp1 (n : Nat) : (render n s).otp1 = otpChars45 n := rfl
@[simp] theorem render_mem (n : Nat) : (render n s).mem = s.mem := rfl
@[simp] theorem render_engine (n : Nat) : (render n s).engine = s.engine := rfl
@[simp] theorem render_config (n : Nat) : (render n s).config = s.config := rfl
@[simp] theorem render_wait (n : Nat) : (render n s).wait = s.wait := rfl
@[simp] theorem render_draws (n : Nat) : (render n s).draws = s.draws := rfl
@[simp] theorem render_pending (n : Nat) : (render n s).pending = s.pending := rfl
@[simp] theorem render_trace (n : Nat) : (render n s).trace = s.trace := rfl

/-! ### writeStatus -/

@[simp] theorem writeStatus_err (v : Word) : (s.writeStatus v).err = s.err := by
  unfold writeStatus; split <;> rfl
@[simp] theorem writeStatus_ovr (v : Word) : (s.writeStatus v).ovr = (!v.getLsbD 8 && s.ovr) := by
  unfold writeStatus; cases h : v.getLsbD 8 <;> simp
@[simp] theorem writeStatus_keylen (v : Word) : (s.writeStatus v).keylen = s.keylen := by
  unfold writeStatus; split <;> rfl
@[simp] theorem writeStatus_ctrHi (v : Word) : (s.writeStatus v).ctrHi = s.ctrHi := by
  unfold writeStatus; split <;> rfl
@[simp] theorem writeStatus_ctrLo (v : Word) : (s.writeStatus v).ctrLo = s.ctrLo := by
  unfold writeStatus; split <;> rfl
@[simp] theorem writeStatus_val (v : Word) : (s.writeStatus v).val = s.val := by
  unfold writeStatus; split <;> rfl
@[simp] theorem writeStatus_toff (v : Word) : (s.writeStatus v).toff = s.toff := by
  unfold writeStatus; split <;> rfl
@[simp] theorem writeStatus_otpBin (v : Word) : (s.writeStatus v).otpBin = s.otpBin := by
  unfold writeStatus; split <;> rfl
@[simp] theorem writeStatus_otp0 (v : Word) : (s.writeStatus v).otp0 = s.otp0 := by
  unfold writeStatus; split <;> rfl
@[simp] theorem writeStatus_otp1 (v : Word) : (s.writeStatus v).otp1 = s.otp1 := by
  unfold writeStatus; split <;> rfl
@[simp] theorem writeStatus_mem (v : Word) : (s.writeStatus v).mem = s.mem := by
  unfold writeStatus; split <;> rfl
@[simp] theorem writeStatus_engine (v : Word) : (s.writeStatus v).engine = s.engine := by
  unfold writeStatus; split <;> rfl
@[simp] theorem writeStatus_config (v : Word) : (s.writeStatus v).config = s.config := by
  unfold writeStatus; split <;> rfl
@[simp] theorem writeStatus_wait (v : Word) : (s.writeStatus v).wait = s.wait := by
  unfold writeStatus; split <;> rfl
@[simp] theorem writeStatus_draws (v : Word) : (s.writeStatus v).draws = s.draws := by
  unfold writeStatus; split <;> rfl
@[simp] theorem writeStatus_pending (v : Word) : (s.writeStatus v).pending = s.pending := by
  unfold writeStatus; split <;> rfl
@[simp] theorem writeStatus_trace (v : Word) : (s.writeStatus v).trace = s.trace := by
  unfold writeStatus; split <;> rfl

end Sys2Proof.Machine.State
end

