-- ==== Sys2Proof/Laws/Lifecycle.lean ====
section
/-! SUPPORT. What a command, a host step and a step of the machine can do, each said once. -/

namespace Sys2Proof.Machine

/-- Everything one half of a command's life can do: reject, accept, complete or drop. -/
theorem lifecycle_cases {capture : State → Except ErrorCode Snapshot} {complete : Snapshot → Option (State → State)}
    {s t : State} (h : lifecycle capture complete s = .next t) :
    (s.engine = .idle ∧ ∃ e, capture s = .error e ∧ t = s.reject e) ∨
    (s.engine = .idle ∧ ∃ snap, capture s = .ok snap ∧ t = s.accept snap) ∨
    (∃ snap writes, s.engine = .busy snap ∧ s.wait = 0 ∧ complete snap = some writes ∧ t = (writes s).retire) ∨
    (s.engine.isBusy = true ∧ t = s.overrun) := by
  unfold lifecycle at h
  split at h
  · rename_i hi
    split at h
    · cases h; exact .inl ⟨hi, _, ‹_›, rfl⟩
    · cases h; exact .inr (.inl ⟨hi, _, ‹_›, rfl⟩)
  · rename_i snap hb
    split at h
    · cases h; exact .inr (.inr (.inl ⟨snap, _, hb, ‹_›, ‹_›, rfl⟩))
    · cases h; exact .inr (.inr (.inr ⟨by simp [hb, Engine.isBusy], rfl⟩))

/-- Issuing with the engine idle: the capture decides. -/
theorem lifecycle_idle {capture : State → Except ErrorCode Snapshot} {complete : Snapshot → Option (State → State)} {s : State}
    (h : s.engine = .idle) :
    lifecycle capture complete s =
      match capture s with
      | .error e => .next (s.reject e)
      | .ok snap => .next (s.accept snap) := by
  cases hc : capture s <;> simp only [lifecycle, h, hc]

/-- The engine's turn: the command in flight writes its results and retires. -/
theorem lifecycle_due {capture : State → Except ErrorCode Snapshot} {complete : Snapshot → Option (State → State)} {s : State}
    {snap : Snapshot} {writes : State → State} (h : s.engine = .busy snap) (hw : s.wait = 0) (hc : complete snap = some writes) :
    lifecycle capture complete s = .next (writes s).retire := by
  simp only [lifecycle, h, hw, hc]

/-- A completion is due exactly for a busy engine whose latency has run out. -/
theorem completionDue_eq_some {s : State} {snap : Snapshot} :
    completionDue s = some snap ↔ s.engine = .busy snap ∧ s.wait = 0 := by
  unfold completionDue
  split <;> simp_all

/-- The selector a completion goes by names the algorithm of the snapshot. -/
@[simp] theorem resolve_selectorOf (alg : HashAlgorithm) : (Snapshot.command.selectorOf alg).resolve = some alg := by
  cases alg <;> rfl

/-- Either half of a command's life ends in a next state: no command stops the machine. -/
theorem lifecycle_answers (capture : State → Except ErrorCode Snapshot) (complete : Snapshot → Option (State → State)) (s : State) :
    ∃ t, lifecycle capture complete s = .next t := by
  unfold lifecycle
  split <;> split <;> exact ⟨_, rfl⟩

/-- So does every command. -/
theorem exec_answers (i : Instr) (s : State) : ∃ t, exec i s = .next t := by
  cases i with
  | enc => exact lifecycle_answers captureEnc completeEnc s
  | mac sel => exact lifecycle_answers (captureMac sel) (completeMac sel) s
  | trunc sel => exact lifecycle_answers (captureTrunc sel) (completeTrunc sel) s
  | fmt reduce => exact lifecycle_answers (captureFmt reduce) (completeFmt reduce) s
  | hotp sel => exact lifecycle_answers (captureHotp sel) (completeHotp sel) s

/-- A served write never meets a bus error. -/
theorem writeReg_ne_fault (r : Reg) (v : Word) (s : State) (f : Fault) : writeReg r v s ≠ .fault f := by
  cases r with
  | cmd =>
    simp only [writeReg, issueCommand]
    split
    · simp
    · split
      · simp
      · rename_i i _
        obtain ⟨t, ht⟩ := exec_answers i s
        simp [ht]
  | _ => simp [writeReg]

/-- Everything a host write can do: an error response, or the write of the register at its address. -/
theorem hostWrite_cases {a : Addr} {n : Nat} {v : Word} {s t : State} (h : hostWrite a n v s = .next t) :
    (served s a n = false ∧ t = s.respond (.busError a)) ∨
    (served s a n = true ∧ writeReg (regAt (wordOffset a)) v s = .next t) := by
  unfold hostWrite memWrite at h
  by_cases hs : served s a n
  · simp only [hs, if_true] at h
    split at h
    · exact absurd ‹_› (writeReg_ne_fault _ _ _ _)
    · cases h; exact .inr ⟨hs, ‹_›⟩
    · cases h
  · simp only [hs] at h
    cases h
    exact .inl ⟨by simpa using hs, rfl⟩

/-- Everything a host read can do: the value at its address, or an error response. -/
theorem hostRead_cases {a : Addr} {n : Nat} {s t : State} (h : hostRead a n s = .next t) :
    (served s a n = true ∧ t = s.respond (.data (readReg s (regAt (wordOffset a))))) ∨
    (served s a n = false ∧ t = s.respond (.busError a)) := by
  unfold hostRead memRead at h
  by_cases hs : served s a n
  · simp only [hs, if_true] at h; cases h; exact .inl ⟨hs, rfl⟩
  · simp only [hs] at h; cases h; exact .inr ⟨by simpa using hs, rfl⟩

/-- Everything a poll can do: it is repeated while the engine is busy. -/
theorem hostPoll_cases {s t : State} (h : hostPoll s = .next t) : t = s.requeue .poll ∨ t = s := by
  unfold hostPoll at h
  split at h
  · cases h; exact .inl rfl
  · cases h; exact .inr rfl

/-- Everything a step can do: complete the command in flight, take the host's next step, or let time pass. -/
theorem step_cases {s t : State} (h : step s = .next t) :
    (∃ snap, s.engine = .busy snap ∧ s.wait = 0 ∧ exec snap.command s = .next t) ∨
    (completionDue s = none ∧ s.pending = [] ∧ t = s.tick) ∨
    (∃ x rest, completionDue s = none ∧ s.pending = x :: rest ∧ hostStep x (s.beginHostStep rest) = .next t) := by
  unfold step blockStep at h
  split at h
  · rename_i snap hd
    obtain ⟨hb, hw⟩ := completionDue_eq_some.1 hd
    exact .inl ⟨snap, hb, hw, h⟩
  · split at h
    · cases h; exact .inr (.inl ⟨‹_›, ‹_›, rfl⟩)
    · exact .inr (.inr ⟨_, _, ‹_›, ‹_›, h⟩)

end Sys2Proof.Machine
end

