-- ==== Sys2Proof/Laws/Commands.lean ====
section
/-! SUPPORT. What each command captures when its operands are legal, what its completion does, and everything a command or a word written to CMD can do. -/

namespace Sys2Proof.Machine

/-! ## Captures -/

theorem captureMac_ok {s : State} {sel : AlgSelector} {alg : HashAlgorithm} (hr : sel.resolve = some alg)
    (hk : s.keylen.toNat ≤ s.config.keyCapacity) : captureMac sel s = .ok (.mac alg s.secret s.message) := by
  simp [captureMac, checked, resolveSelector, hr, checkKeyLength, Nat.not_lt.2 hk]

theorem captureTrunc_ok {s : State} {sel : AlgSelector} {alg : HashAlgorithm} (hr : sel.resolve = some alg) :
    captureTrunc sel s = .ok (.trunc alg (s.digest (digestLen alg))) := by
  simp [captureTrunc, checked, resolveSelector, hr]

theorem captureFmt_ok {s : State} {reduce : Bool} (h : reduce = true ∨ s.val.toNat < otpModulus) :
    captureFmt reduce s = .ok (.fmt reduce s.val) := by
  have hn : ¬ (reduce = false ∧ otpModulus ≤ s.val.toNat) := by
    rintro ⟨rfl, h2⟩
    rcases h with h | h
    · cases h
    · omega
  simp only [captureFmt, checked, checkFormatRange, if_neg hn]

theorem captureHotp_ok {s : State} {sel : AlgSelector} {alg : HashAlgorithm} (hr : sel.resolve = some alg)
    (hk : s.keylen.toNat ≤ s.config.keyCapacity) : captureHotp sel s = .ok (.hotp alg s.secret s.counter) := by
  simp [captureHotp, checked, resolveSelector, hr, checkKeyLength, Nat.not_lt.2 hk]

/-- A capture that fails names an error, and never IllegalCommand, which is the decoder's. -/
theorem capture_error {s : State} {sel : AlgSelector} {reduce : Bool} {e : ErrorCode}
    (h : captureMac sel s = .error e ∨ captureTrunc sel s = .error e ∨ captureFmt reduce s = .error e ∨ captureHotp sel s = .error e) :
    e ≠ .ok ∧ e ≠ .illegalCommand := by
  simp only [captureMac, captureTrunc, captureFmt, captureHotp, checked, resolveSelector, checkKeyLength, checkFormatRange] at h
  constructor <;> rintro rfl <;> cases hr : sel.resolve <;> by_cases hk : s.config.keyCapacity < s.keylen.toNat <;>
    by_cases hf : reduce = false ∧ otpModulus ≤ s.val.toNat <;> simp [hr, hk, hf] at h

/-! ## Completions -/

/-- The writes that the completion of a captured command makes. -/
def Snapshot.effect : Snapshot → State → State
  | .enc ctr, s => s.storeBytes msgBase (encodeCounter ctr)
  | .mac alg key msg, s => s.storeBytes digestBase (macDigest alg key msg)
  | .trunc _ dig, s => (s.setVal (truncValue dig)).setToff (truncOffset dig)
  | .fmt reduce val, s => render (fmtValue reduce val) s
  | .hotp alg key ctr, s => render (hotpValue alg key ctr) s

/-- The command in flight, its completion due, makes its writes and retires. -/
theorem exec_due {s : State} {snap : Snapshot} (h : s.engine = .busy snap) (hw : s.wait = 0) :
    exec snap.command s = .next (snap.effect s).retire := by
  cases snap with
  | enc ctr => exact lifecycle_due (capture := captureEnc) (complete := completeEnc) h hw rfl
  | mac alg key msg => exact lifecycle_due (capture := captureMac _) (complete := completeMac _) h hw (by simp [completeMac]; rfl)
  | trunc alg dig => exact lifecycle_due (capture := captureTrunc _) (complete := completeTrunc _) h hw (by simp [completeTrunc]; rfl)
  | fmt reduce val => exact lifecycle_due (capture := captureFmt _) (complete := completeFmt _) h hw (by simp [completeFmt]; rfl)
  | hotp alg key ctr => exact lifecycle_due (capture := captureHotp _) (complete := completeHotp _) h hw (by simp [completeHotp]; rfl)

/-- The same under another selector that resolves to the captured algorithm. -/
theorem execMac_due {s : State} {sel : AlgSelector} {alg : HashAlgorithm} {key msg : List Byte} (hr : sel.resolve = some alg)
    (h : s.engine = .busy (.mac alg key msg)) (hw : s.wait = 0) :
    exec (.mac sel) s = .next ((Snapshot.mac alg key msg).effect s).retire :=
  lifecycle_due (capture := captureMac _) (complete := completeMac _) h hw (by simp [completeMac, hr]; rfl)

theorem execTrunc_due {s : State} {sel : AlgSelector} {alg : HashAlgorithm} {dig : List Byte} (hr : sel.resolve = some alg)
    (h : s.engine = .busy (.trunc alg dig)) (hw : s.wait = 0) :
    exec (.trunc sel) s = .next ((Snapshot.trunc alg dig).effect s).retire :=
  lifecycle_due (capture := captureTrunc _) (complete := completeTrunc _) h hw (by simp [completeTrunc, hr]; rfl)

theorem execHotp_due {s : State} {sel : AlgSelector} {alg : HashAlgorithm} {key : List Byte} {ctr : DWord}
    (hr : sel.resolve = some alg) (h : s.engine = .busy (.hotp alg key ctr)) (hw : s.wait = 0) :
    exec (.hotp sel) s = .next ((Snapshot.hotp alg key ctr).effect s).retire :=
  lifecycle_due (capture := captureHotp _) (complete := completeHotp _) h hw (by simp [completeHotp, hr]; rfl)

/-! ## Everything a command can do -/

/-- Issuing with the engine idle: rejected with what the capture's error is, or accepted. -/
theorem lifecycle_idle_cases {capture : State → Except ErrorCode Snapshot} {complete : Snapshot → Option (State → State)} {s t : State}
    (hs : s.engine = .idle) (hc : ∀ e, capture s = .error e → e ≠ .ok ∧ e ≠ .illegalCommand) (h : lifecycle capture complete s = .next t) :
    (∃ e, (e ≠ .ok ∧ e ≠ .illegalCommand) ∧ t = s.reject e) ∨ ∃ snap, t = s.accept snap := by
  rw [lifecycle_idle hs] at h
  split at h <;> cases h
  · exact .inl ⟨_, hc _ ‹_›, rfl⟩
  · exact .inr ⟨_, rfl⟩

/-- A command issued to an idle engine is rejected with an error other than IllegalCommand, or accepted. -/
theorem exec_idle_cases {i : Instr} {s t : State} (hs : s.engine = .idle) (h : exec i s = .next t) :
    (∃ e, (e ≠ .ok ∧ e ≠ .illegalCommand) ∧ t = s.reject e) ∨ ∃ snap, t = s.accept snap := by
  cases i with
  | enc => exact lifecycle_idle_cases (capture := captureEnc) (complete := completeEnc) hs (by simp [captureEnc]) h
  | mac sel =>
    exact lifecycle_idle_cases (complete := completeMac sel) hs (fun _ he => capture_error (reduce := true) (.inl he)) h
  | trunc sel =>
    exact lifecycle_idle_cases (complete := completeTrunc sel) hs
      (fun _ he => capture_error (reduce := true) (.inr (.inl he))) h
  | fmt reduce =>
    exact lifecycle_idle_cases (complete := completeFmt reduce) hs
      (fun _ he => capture_error (sel := .sha1) (.inr (.inr (.inl he)))) h
  | hotp sel =>
    exact lifecycle_idle_cases (complete := completeHotp sel) hs
      (fun _ he => capture_error (reduce := true) (.inr (.inr (.inr he)))) h

/-- A word written to CMD is dropped by a busy engine; an idle one rejects it with an error, or accepts it. -/
theorem issueCommand_cases {v : Word} {s t : State} (h : issueCommand v s = .next t) :
    (s.engine.isBusy = true ∧ t = s.overrun) ∨
    (s.engine = .idle ∧ ((∃ e, e ≠ .ok ∧ t = s.reject e) ∨ ∃ snap, t = s.accept snap)) := by
  unfold issueCommand at h
  split at h
  · rename_i hb; cases h; exact .inl ⟨by simp [hb, Engine.isBusy], rfl⟩
  · rename_i hs
    refine .inr ⟨hs, ?_⟩
    split at h
    · rename_i e _; cases h; exact .inl ⟨_, by cases e <;> simp [DecodeError.code], rfl⟩
    · exact (exec_idle_cases hs h).imp_left fun ⟨e, he, ht⟩ => ⟨e, he.1, ht⟩

/-- A transaction is served if it is a 32-bit access at an aligned mapped address. -/
theorem served_iff {s : State} {a : Addr} {n : Nat} :
    served s a n = true ↔ (n = 4 ∧ a.toNat % 4 = 0) ∧ mapped s.config.keyCapacity a = true := by
  simp [served]

end Sys2Proof.Machine
end

