-- ==== Sys2Proof/Laws/Memory.lean ====
section
/-! SUPPORT. The laws of the memory operations: each keeps the canonical form, a byte written reads back, and every other byte stays. -/

namespace Sys2Proof.Machine.Memory

/-- The canonical form of a memory that begins with an entry. -/
theorem wf_cons {c : Nat} {x : Byte} {m : Memory} :
    Memory.wf ((c, x) :: m) ↔ (∀ e ∈ m, c < e.1) ∧ x ≠ unlisted ∧ Memory.wf m := by
  simp only [Memory.wf, List.pairwise_cons, List.mem_cons, forall_eq_or_imp]
  tauto

theorem wf_nil : Memory.wf [] := by simp [Memory.wf]

/-- An address below every listed one reads as an unlisted address does. -/
theorem read_of_below {m : Memory} {a : Nat} (h : ∀ e ∈ m, a < e.1) : m.read a = unlisted := by
  induction m with
  | nil => rfl
  | cons e m ih =>
    obtain ⟨c, x⟩ := e
    have hc : a < c := h (c, x) (by simp)
    simp only [read, if_neg (Nat.ne_of_gt hc)]
    exact ih fun e he => h e (by simp [he])

theorem read_consByte (m : Memory) (a : Nat) (b : Byte) (h : ∀ e ∈ m, a < e.1) (x : Nat) :
    (consByte a b m).read x = if x = a then b else m.read x := by
  unfold consByte
  by_cases hb : b = unlisted
  · simp only [if_pos hb]
    by_cases hx : x = a
    · simp only [hx, hb]; exact read_of_below h
    · simp only [if_neg hx]
  · simp only [if_neg hb, read, eq_comm (a := a)]

theorem wf_consByte {m : Memory} {a : Nat} (b : Byte) (h : ∀ e ∈ m, a < e.1) (hm : m.wf) : (consByte a b m).wf := by
  unfold consByte
  split
  · exact hm
  · exact wf_cons.2 ⟨h, ‹_›, hm⟩

theorem mem_consByte {m : Memory} {a : Nat} {b : Byte} {e : Host.Cell} (h : e ∈ consByte a b m) : e.1 = a ∨ e ∈ m := by
  unfold consByte at h
  split at h
  · exact .inr h
  · rcases List.mem_cons.1 h with rfl | h
    · exact .inl rfl
    · exact .inr h

/-- A listed address after a write is the one written, or was listed before. -/
theorem mem_write {m : Memory} {a : Nat} {b : Byte} {e : Host.Cell} (h : e ∈ m.write a b) : e.1 = a ∨ e ∈ m := by
  induction m with
  | nil => exact mem_consByte h
  | cons c m ih =>
    obtain ⟨c, x⟩ := c
    simp only [write] at h
    split at h
    · exact mem_consByte h
    · split at h
      · exact (mem_consByte h).imp_right (List.mem_cons_of_mem _)
      · rcases List.mem_cons.1 h with rfl | h
        · exact .inr (by simp)
        · exact (ih h).imp_right (List.mem_cons_of_mem _)

/-- Storing a byte keeps the canonical form. -/
theorem wf_write {m : Memory} (hm : m.wf) (a : Nat) (b : Byte) : (m.write a b).wf := by
  induction m with
  | nil => exact wf_consByte b (by simp) wf_nil
  | cons e m ih =>
    obtain ⟨c, x⟩ := e
    obtain ⟨hc, hx, hm'⟩ := wf_cons.1 hm
    simp only [write]
    split
    · rename_i hac
      refine wf_consByte b (fun e he => ?_) hm
      rcases List.mem_cons.1 he with rfl | he
      · exact hac
      · exact hac.trans (hc e he)
    · split
      · rename_i hac; exact wf_consByte b (hac ▸ hc) hm'
      · rename_i h1 h2
        refine wf_cons.2 ⟨fun e he => ?_, hx, ih hm'⟩
        rcases mem_write he with h | h
        · omega
        · exact hc e h

/-- A byte written reads back, and every other byte stays. -/
theorem read_write {m : Memory} (hm : m.wf) (a : Nat) (b : Byte) (x : Nat) :
    (m.write a b).read x = if x = a then b else m.read x := by
  induction m with
  | nil => exact read_consByte [] a b (by simp) x
  | cons e m ih =>
    obtain ⟨c, y⟩ := e
    obtain ⟨hc, hy, hm'⟩ := wf_cons.1 hm
    simp only [write]
    split
    · rename_i hac
      refine read_consByte _ a b (fun e he => ?_) x
      rcases List.mem_cons.1 he with rfl | he
      · exact hac
      · exact hac.trans (hc e he)
    · split
      · rename_i hac
        subst hac
        rw [read_consByte m a b hc x]
        by_cases hx : x = a
        · simp [hx]
        · simp [hx, read, Ne.symm hx]
      · rename_i h1 h2
        simp only [read, ih hm']
        by_cases hx : c = x
        · have : x ≠ a := by omega
          simp [hx, this]
        · simp [hx]

/-- Storing bytes keeps the canonical form. -/
theorem wf_writeBytes {m : Memory} (hm : m.wf) (a : Nat) (bs : List Byte) : (m.writeBytes a bs).wf := by
  induction bs generalizing m a with
  | nil => exact hm
  | cons b bs ih => exact ih (wf_write hm a b) (a + 1)

/-- Storing a word keeps the canonical form. -/
theorem wf_writeWord {m : Memory} (hm : m.wf) (a : Nat) (v : Word) : (m.writeWord a v).wf := wf_writeBytes hm a _

/-- A listed address after storing bytes is one of theirs, or was listed before. -/
theorem mem_writeBytes {m : Memory} {a : Nat} {bs : List Byte} {e : Host.Cell} (h : e ∈ m.writeBytes a bs) :
    (a ≤ e.1 ∧ e.1 < a + bs.length) ∨ e ∈ m := by
  induction bs generalizing m a with
  | nil => exact .inr h
  | cons b bs ih =>
    simp only [List.length_cons]
    rcases ih h with h | h
    · exact .inl (by omega)
    · rcases mem_write h with h | h
      · exact .inl (by omega)
      · exact .inr h

/-- Bytes stored read back in their order, and every other byte stays. -/
theorem read_writeBytes {m : Memory} (hm : m.wf) (a : Nat) (bs : List Byte) (x : Nat) :
    (m.writeBytes a bs).read x = if a ≤ x ∧ x < a + bs.length then bs.getD (x - a) 0#8 else m.read x := by
  induction bs generalizing m a with
  | nil => rw [if_neg (by simp only [List.length_nil]; omega)]; rfl
  | cons b bs ih =>
    simp only [writeBytes, ih (wf_write hm a b), read_write hm, List.length_cons]
    rcases Nat.lt_trichotomy x a with h | h | h
    · rw [if_neg (by omega), if_neg (by omega), if_neg (by omega)]
    · subst h; rw [if_neg (by omega), if_pos rfl, if_pos (by omega)]; simp
    · by_cases hx : x < a + (bs.length + 1)
      · rw [if_pos (by omega), if_pos (by omega), show x - a = (x - (a + 1)) + 1 by omega, List.getD_cons_succ]
      · rw [if_neg (by omega), if_neg (by omega), if_neg (by omega)]

/-- The bytes read are as many as asked for. -/
@[simp] theorem readBytes_length (m : Memory) (a n : Nat) : (m.readBytes a n).length = n := by
  induction n generalizing a with
  | zero => rfl
  | succ n ih => simp [readBytes, ih]

/-- The bytes read are those at the addresses from the first on. -/
theorem readBytes_getD (m : Memory) (a n i : Nat) (h : i < n) : (m.readBytes a n).getD i 0#8 = m.read (a + i) := by
  induction n generalizing a i with
  | zero => omega
  | succ n ih =>
    cases i with
    | zero => rfl
    | succ i => simp only [readBytes, List.getD_cons_succ, ih (a + 1) i (by omega)]; congr 1; omega

/-- Two memories with the same bytes in a range give the same byte sequence there. -/
theorem readBytes_congr {m m' : Memory} {a n : Nat} (h : ∀ x, a ≤ x → x < a + n → m.read x = m'.read x) :
    m.readBytes a n = m'.readBytes a n := by
  induction n generalizing a with
  | zero => rfl
  | succ n ih =>
    simp only [readBytes]
    rw [h a (by omega) (by omega), ih fun x h1 h2 => h x (by omega) (by omega)]

end Sys2Proof.Machine.Memory
end

