-- ==== Sys2Proof/Laws/PerInstr.lean ====
section
/-! SUPPORT. The family EncodedFields: what the word of an instruction holds in its OP and RSV fields, one lemma per constructor. -/

namespace Sys2Proof.Laws.EncodedFields

/-- The OP value of an instruction (spec/30_encoding.md R81). -/
def opOf : Instr → BitVec 4
  | .enc => 1#4
  | .mac _ => 2#4
  | .trunc _ => 3#4
  | .fmt _ => 4#4
  | .hotp _ => 5#4

/-- The word of an instruction has the instruction's OP value, and RSV = 0 (R80, R81, R84). -/
def Statement (i : Instr) : Prop := opField (encode i) = opOf i ∧ reservedField (encode i) = 0

/-- The fields of a word put together from its fields (R80). -/
theorem fields_of_word (r : BitVec 1) (alg : BitVec 3) (op : BitVec 4) :
    opField (wordOfFields r alg op) = op ∧ reservedField (wordOfFields r alg op) = 0#24 := by
  revert r alg op; decide +kernel

theorem enc : Statement .enc := fields_of_word _ _ _
theorem mac (alg : AlgSelector) : Statement (.mac alg) := fields_of_word _ _ _
theorem trunc (alg : AlgSelector) : Statement (.trunc alg) := fields_of_word _ _ _
theorem fmt (reduce : Bool) : Statement (.fmt reduce) := fields_of_word _ _ _
theorem hotp (alg : AlgSelector) : Statement (.hotp alg) := fields_of_word _ _ _

end Sys2Proof.Laws.EncodedFields
end

