-- ==== Sys2Proof/Machine/AsmText.lean ====
section
/-! DEFINITION. The text of the host's programs: the lines of R92 and R93 (spec/30_encoding.md), and the statements they stand for. Its spellings of tokens and numbers are DESIGN CHOICE, log entry 15; safe. -/

namespace Sys2Proof.Machine

/-- The tokens of a line. A blank ends a token, a comma is one of its own, a `;` outside a quotation starts a comment (R92), and
a quotation is part of one token, its two marks included. `current` is the token being read, newest character first. -/
def tokens (quoted : Bool) (current : List Char) : List Char → List (List Char)
  | [] => flush current []
  | c :: rest =>
    if quoted then tokens (c != '"') (c :: current) rest
    else if c = ';' then flush current []
    else if c = '"' then tokens true (c :: current) rest
    else if c = ',' then flush current ([','] :: tokens false [] rest)
    else if c = ' ' ∨ c = '\t' then flush current (tokens false [] rest)
    else tokens false (c :: current) rest
where
  /-- The token that has been read, if any, before the others. -/
  flush (current : List Char) (others : List (List Char)) : List (List Char) :=
    if current = [] then others else current.reverse :: others

/-- The value of a digit in a base up to 16. -/
def digitValue (base : Nat) (c : Char) : Option Nat :=
  let n := c.toNat
  let d := if 0x30 ≤ n ∧ n ≤ 0x39 then n - 0x30 else if 0x41 ≤ n ∧ n ≤ 0x46 then n - 0x37
    else if 0x61 ≤ n ∧ n ≤ 0x66 then n - 0x57 else base
  if d < base then some d else none

/-- The value of digits, the most significant first, after those that gave `acc`. -/
def digitsValue (base acc : Nat) : List Char → Option Nat
  | [] => some acc
  | c :: rest =>
    match digitValue base c with
    | some d => digitsValue base (acc * base + d) rest
    | none => none

/-- A number: `0x` and hexadecimal digits, or decimal digits; at least one digit. -/
def numeral : List Char → Option Nat
  | [] => none
  | '0' :: 'x' :: d :: rest => digitsValue 16 0 (d :: rest)
  | ds => digitsValue 10 0 ds

/-- A number of at most `w` bits: imm32 and imm64. -/
def immediate (w : Nat) (token : List Char) : Option (BitVec w) :=
  match numeral token with
  | some n => if n < 2 ^ w then some (BitVec.ofNat w n) else none
  | none => none

/-- The bytes of pairs of hexadecimal digits, `HH..` (R93). -/
def hexBytes : List Char → Option (List Byte)
  | [] => some []
  | [_] => none
  | a :: b :: rest =>
    match digitsValue 16 0 [a, b], hexBytes rest with
    | some n, some bytes => some (BitVec.ofNat 8 n :: bytes)
    | _, _ => none

/-- `hex:HH..` (R93). -/
def hexToken : List Char → Option (List Byte)
  | 'h' :: 'e' :: 'x' :: ':' :: ds => hexBytes ds
  | _ => none

/-- The text of a quotation, without its marks. It is ASCII (R93). -/
def quotation : List Char → Option (List Char)
  | '"' :: rest =>
    if rest.getLast? = some '"' ∧ rest.all (fun c => decide (c.toNat < 0x80)) = true then some rest.dropLast else none
  | _ => none

/-- The names of the words other than buffer words (R92, spec/10_state.md R22). -/
def registerNames : List (List Char × Reg) :=
  [(['C', 'M', 'D'], .cmd), (['S', 'T', 'A', 'T', 'U', 'S'], .status), (['K', 'E', 'Y', 'L', 'E', 'N'], .keylen),
   (['C', 'T', 'R', '_', 'H', 'I'], .ctrHi), (['C', 'T', 'R', '_', 'L', 'O'], .ctrLo), (['V', 'A', 'L'], .val),
   (['T', 'O', 'F', 'F'], .toff), (['O', 'T', 'P', '_', 'B', 'I', 'N'], .otpBin), (['O', 'T', 'P', '0'], .otp0),
   (['O', 'T', 'P', '1'], .otp1)]

/-- What is left of a token behind a stem. -/
def afterStem : List Char → List Char → Option (List Char)
  | [], token => some token
  | _ :: _, [] => none
  | a :: stem, b :: token => if a = b then afterStem stem token else none

/-- A buffer word: its buffer's stem and its index in decimal. -/
def bufferWord (stem : List Char) (word : Nat → Reg) (token : List Char) : Option Reg :=
  match afterStem stem token with
  | some [] => none
  | some ds => (digitsValue 10 0 ds).map word
  | none => none

/-- The word that a name stands for (R92). -/
def registerOfName (token : List Char) : Option Reg :=
  match registerNames.lookup token with
  | some r => some r
  | none =>
    (bufferWord ['M', 'S', 'G'] .msg token).or
      ((bufferWord ['D', 'I', 'G', 'E', 'S', 'T'] .digest token).or (bufferWord ['K', 'E', 'Y'] .key token))

/-- The suffixes that name an ALG field, and none for 0b000 (R92). -/
def mnemonicSuffixes : List (List Char × AlgSelector) :=
  [([], .unspecified), (['.', 'S', 'H', 'A', '1'], .sha1), (['.', 'S', 'H', 'A', '2', '5', '6'], .sha256),
   (['.', 'S', 'H', 'A', '5', '1', '2'], .sha512)]

/-- A command with an ALG suffix, or none. -/
def suffixed (stem : List Char) (command : AlgSelector → Instr) (token : List Char) : Option Instr :=
  match afterStem stem token with
  | some suffix => (mnemonicSuffixes.lookup suffix).map command
  | none => none

/-- The command of a mnemonic (R86, R92). -/
def commandOfMnemonic (token : List Char) : Option Instr :=
  if token = ['E', 'N', 'C'] then some .enc
  else if token = ['F', 'M', 'T'] then some (.fmt false)
  else if token = ['F', 'M', 'T', '.', 'R'] then some (.fmt true)
  else (suffixed ['M', 'A', 'C'] .mac token).or
    ((suffixed ['T', 'R', 'U', 'N', 'C'] .trunc token).or (suffixed ['H', 'O', 'T', 'P'] .hotp token))

/-- The statement of a line's tokens (R92, R93). -/
def statementOfTokens : List (List Char) → Option Stmt
  | [['w', 'r'], '@' :: a, [','], v] =>
    match immediate 12 a, immediate 32 v with
    | some a, some v => some (.wrAt a v)
    | _, _ => none
  | [['w', 'r'], name, [','], v] =>
    match registerOfName name, immediate 32 v with
    | some r, some v => some (.wr r v)
    | _, _ => none
  | [['r', 'd'], '@' :: a] => (immediate 12 a).map .rdAt
  | [['r', 'd'], name] => (registerOfName name).map .rd
  | [['c', 'm', 'd'], m] => (commandOfMnemonic m).map .cmd
  | [['c', 'm', 'd', '.', 'r', 'a', 'w'], v] => (immediate 32 v).map .cmdRaw
  | [['w', 'a', 'i', 't']] => some .wait
  | [['c', 't', 'r'], c] => (immediate 64 c).map .ctr
  | [['k', 'e', 'y'], arg] =>
    ((hexToken arg).or ((quotation arg).map asciiBytes)).map .key
  | [['d', 'i', 'g', 'e', 's', 't'], arg] => (hexToken arg).map .digest
  | [['c', 'l', 'r', 'o', 'v', 'r']] => some .clrovr
  | [['h', 'o', 't', 'p', '.', 'w', 'a', 'i', 't'], m] => (commandOfMnemonic m).map .hotpWait
  | _ => none

/-- The statements of a line: none for a blank line or a comment, one for a statement; no answer for a line that R92 and R93 do
not give, or that names a word the block does not have. -/
def assembleLine (cap : Nat) (line : List Char) : Option (List Stmt) :=
  match tokens false [] line with
  | [] => some []
  | ts => ((statementOfTokens ts).filter (Stmt.wellFormed cap)).map fun stmt => [stmt]

/-- The statements of a program's lines. -/
def assemble (cap : Nat) : List (List Char) → Option (List Stmt)
  | [] => some []
  | line :: lines =>
    match assembleLine cap line, assemble cap lines with
    | some stmts, some others => some (stmts ++ others)
    | _, _ => none

end Sys2Proof.Machine
end

