-- ==== Sys2Proof/Tests/Slice0.lean ====
section
/-! SUPPORT. The model's tests. Words and values are the spec's own (spec/30_encoding.md R80 to R86, spec/95_test_vectors.md); each test names its row. Behind them stands, for every statement with hypotheses, a state and operands that meet them all. -/

namespace Sys2Proof.Tests.Slice0

open Sys2Proof Sys2Proof.Machine

/-! ## Helpers -/

/-- What `f` sees of a next state. -/
def seen {α : Type} (o : Host.Outcome State Fault Refusal) (f : State → α) : Option α :=
  match o with
  | .next t => some (f t)
  | .fault _ => none
  | .refused _ => none

/-- A block that is to complete this command now. -/
def due (snap : Snapshot) : State := { State.reset with engine := .busy snap }

/-- The RFC 4226 secret, "12345678901234567890" (V-S1). -/
def secret20 : List Byte := be 20 0x3132333435363738393031323334353637383930

/-- A block whose KEY holds the RFC 4226 secret. -/
def keyed : State := { State.reset with keylen := 20, mem := Memory.writeBytes [] 0x100 secret20 }

/-- A block with a HOTP of that secret in flight, the host having these steps to do while `n` of them pass. -/
def inFlight (n : Nat) (pending : List HostStep) : State :=
  { keyed with engine := .busy (.hotp .sha1 secret20 0), wait := n, pending := pending }

/-- The digest of V-S1, counter 0. -/
def digest0 : List Byte := be 20 0xcc93cf18508d94934c64b65d8ba7667fb7cde4b0

/-! ## WellFormed -/

/-- 0b010 is the selector of SHA-256 and no unsupported one (R82). -/
theorem test_wellFormed_refuses_mac : (Instr.mac (.unsupported 0b010#3)).wellFormed = false := by decide
theorem test_wellFormed_refuses_trunc : (Instr.trunc (.unsupported 0b000#3)).wellFormed = false := by decide
theorem test_wellFormed_refuses_hotp : (Instr.hotp (.unsupported 0b011#3)).wellFormed = false := by decide

/-! ## Decoding: RSV, R, ALG, OP written out (R80) -/

theorem test_decode_enc : decode 0b00000000000000000000000000000001#32 = .ok .enc := by decide
theorem test_decode_mac : decode 0b00000000000000000000000000000010#32 = .ok (.mac .unspecified) ∧
    decode 0b00000000000000000000000000010010#32 = .ok (.mac .sha1) ∧
    decode 0b00000000000000000000000000100010#32 = .ok (.mac .sha256) ∧
    decode 0b00000000000000000000000000110010#32 = .ok (.mac .sha512) := by decide
theorem test_decode_trunc : decode 0b00000000000000000000000000000011#32 = .ok (.trunc .unspecified) ∧
    decode 0b00000000000000000000000000010011#32 = .ok (.trunc .sha1) ∧
    decode 0b00000000000000000000000000100011#32 = .ok (.trunc .sha256) ∧
    decode 0b00000000000000000000000000110011#32 = .ok (.trunc .sha512) := by decide
theorem test_decode_fmt : decode 0b00000000000000000000000000000100#32 = .ok (.fmt false) ∧
    decode 0b00000000000000000000000010000100#32 = .ok (.fmt true) := by decide
theorem test_decode_hotp : decode 0b00000000000000000000000000000101#32 = .ok (.hotp .unspecified) ∧
    decode 0b00000000000000000000000000010101#32 = .ok (.hotp .sha1) ∧
    decode 0b00000000000000000000000000100101#32 = .ok (.hotp .sha256) ∧
    decode 0b00000000000000000000000000110101#32 = .ok (.hotp .sha512) := by decide
/-- ALG = 0b101 of T10, and 0b111 of the word 0x75 of P3. -/
theorem test_decode_unsupported : decode 0b00000000000000000000000001010011#32 = .ok (.trunc (.unsupported 0b101#3)) ∧
    decode 0b00000000000000000000000001110101#32 = .ok (.hotp (.unsupported 0b111#3)) := by decide
/-- E6, E7, E8, F13, M17, and the reserved OP values 0 and 6. -/
theorem test_decode_rejects : decode 0x00000011 = .error .algNotZero ∧ decode 0x00000081 = .error .reduceNotAllowed ∧
    decode 0x00000101 = .error .reservedBitsSet ∧ decode 0x00000014 = .error .algNotZero ∧
    decode 0x00000082 = .error .reduceNotAllowed ∧ decode 0x00000000 = .error .reservedOperation ∧
    decode 0x00000006 = .error .reservedOperation := by decide
/-- The opcode table's row of HOTP: the operation alone, its fields 0. -/
theorem test_decodeTableWord : decodeTableWord 32 0x5 = some (.hotp .unspecified) ∧ decodeTableWord 32 0x6 = none := by decide

/-! ## One step of each command -/

/-- E4. -/
theorem test_enc : seen (exec .enc (due (.enc 0x0123456789ABCDEF))) (fun t => (beval t.message, t.engine)) =
    some (0x0123456789ABCDEF, .idle) := by decide
/-- E5's counter, captured high half first. -/
theorem test_enc_captures : seen (exec .enc { State.reset with ctrHi := 0x01234567, ctrLo := 0x89ABCDEF }) (fun t => t.engine) =
    some (.busy (.enc 0x0123456789ABCDEF)) := by decide
/-- M1. -/
theorem test_mac_sha1 : seen (exec (.mac .unspecified) (due (.mac .sha1 secret20 (zeros 8)))) (fun t => t.digest 20) =
    some digest0 := by decide +kernel
/-- M7: SHA-512 with the empty secret. -/
theorem test_mac_sha512 : seen (exec (.mac .sha512) (due (.mac .sha512 [] (zeros 8)))) (fun t => beval (t.digest 64)) =
    some 0x6a410b5a992a613a3e791dc3368cdd618c8d6e4740bc7f187a45e7b283b732ffef5bd56c9979e4e1bb42f76de87688a48d629fbbe8e703ac8199532547f0267e := by
  decide +kernel
/-- T2: offset 15. -/
theorem test_trunc_offset15 : seen (exec (.trunc .sha1) (due (.trunc .sha1 (be 20 0x000102030405060708090a0b0c0d0e0f1011121f))))
    (fun t => (t.toff, t.val)) = some (15#4, 0x0F101112#32) := by decide
/-- T3: the top bit of the window is cleared. -/
theorem test_trunc_masks : seen (exec (.trunc .unspecified) (due (.trunc .sha1 (be 20 0xfffffffffffffffffffffffffffffffffffffff0))))
    (fun t => (t.toff, t.val)) = some (0#4, 0x7FFFFFFF#32) := by decide
/-- F2: leading zeros are kept. -/
theorem test_fmt : seen (exec (.fmt false) (due (.fmt false 7))) (fun t => (t.otpBin, t.otp0, readReg t .otp1)) =
    some (7#20, 0x30303030#32, 0x30370000#32) := by decide
/-- F7. -/
theorem test_fmt_reduces : seen (exec (.fmt true) (due (.fmt true 0xFFFFFFFF))) (fun t => (t.otpBin, t.otp0, readReg t .otp1)) =
    some (967295#20, 0x39363732#32, 0x39350000#32) := by decide
/-- V-S1, counter 1. -/
theorem test_hotp : seen (exec (.hotp .unspecified) (due (.hotp .sha1 secret20 1))) (fun t => (t.otpBin, t.otp0, readReg t .otp1)) =
    some (287082#20, 0x32383730#32, 0x38320000#32) := by decide +kernel
/-- V-S2: SHA-256. -/
theorem test_hotp_sha256 :
    seen (exec (.hotp .sha256) (due (.hotp .sha256 (be 32 0x3132333435363738393031323334353637383930313233343536373839303132) 1)))
      (fun t => t.otpBin) = some 119246#20 := by decide +kernel

/-! ## Errors, the window and the host -/

/-- F4, M14, M15, M17, and the priority of the word 0xF2 of P3. -/
theorem test_errors : seen (exec (.fmt false) { State.reset with val := 1000000 }) (fun t => t.err) = some .formatRangeError ∧
    seen (issueCommand 0x02 { State.reset with keylen := 257 }) (fun t => t.err) = some .keyLengthError ∧
    seen (issueCommand 0x42 State.reset) (fun t => t.err) = some .invalidHashAlgorithm ∧
    seen (issueCommand 0x82 State.reset) (fun t => t.err) = some .illegalCommand ∧
    seen (issueCommand 0xF2 { State.reset with keylen := 257 }) (fun t => t.err) = some .illegalCommand := by decide
/-- KEYLEN = KEY_CAPACITY is legal (M12). -/
theorem test_full_key_accepted : seen (exec (.mac .sha256) { State.reset with keylen := 256 }) (fun t => t.err) = some .ok := by
  decide +kernel
/-- STATUS after the first FMT of P3 fails, and with OVR and BUSY as under "lazy" of P5. -/
theorem test_status : memRead 0x004#12 4 { State.reset with err := .formatRangeError } = .ok 0x00000020#32 ∧
    memRead 0x004#12 4 { due (.enc 0) with ovr := true } = .ok 0x00000101#32 := by decide
/-- The edges of the map (R61): mapped words, and the reserved ones beside them. -/
theorem test_map_edges :
    ([0x000, 0x024, 0x040, 0x044, 0x080, 0x0BC, 0x100, 0x1FC] : List Addr).all (mapped 256) = true ∧
    ([0x028, 0x03C, 0x048, 0x07C, 0x0C0, 0x0FC, 0x200, 0xFFC] : List Addr).any (mapped 256) = false ∧
    mapped 3840 0xFFC#12 = true := by decide +kernel
/-- A narrow, a misaligned and a reserved transaction (R62). -/
theorem test_bus_errors : memRead 0x000#12 2 State.reset = .error (.busError 0x000#12) ∧
    memRead 0x002#12 4 State.reset = .error (.busError 0x002#12) ∧
    memWrite 0x028#12 4 1 State.reset = .fault (.busError 0x028#12) ∧
    seen (step { State.reset with pending := [.read 0x028#12 4] }) (fun t => t.trace) = some [.busError 0x028#12] :=
  ⟨by decide, by decide, rfl, by decide⟩
/-- The word of the table's row of HOTP runs as the first instruction after reset. -/
theorem test_withFetchWord : seen (step (State.reset.withFetchWord 32 0x5)) (fun t => t.engine) = some (.busy (.hotp .sha1 [] 0)) := by
  decide +kernel
/-- The lines of P5 and their transactions. -/
theorem test_program_text :
    (assemble 256 [['c','t','r',' ','0','x','0','1','2','3','4','5','6','7','8','9','A','B','C','D','E','F'],
      ['c','m','d',' ','E','N','C',' ',';','d'], ['w','a','i','t'], ['r','d',' ','M','S','G','0']]).map (fun p => p.flatMap Stmt.expand) =
    some [.write 0x00C#12 4 0x01234567, .write 0x010#12 4 0x89ABCDEF, .write 0x000#12 4 1, .poll, .read 0x040#12 4] := by decide +kernel
/-- P1's `key` line: KEYLEN, and the secret in five words. -/
theorem test_key_statement : (Stmt.key secret20).expand =
    [.write 0x008#12 4 0x14, .write 0x100#12 4 0x31323334, .write 0x104#12 4 0x35363738, .write 0x108#12 4 0x39303132,
     .write 0x10C#12 4 0x33343536, .write 0x110#12 4 0x37383930] := by decide +kernel
/-- V-S4: the host's counter. -/
theorem test_totp_counter : totpCounter 1111111111 = 0x00000000023523ED#64 := by decide
/-- Writing the value an unlisted address reads as removes the entry, and equal memories are equal data. -/
theorem test_memory_canonical : Memory.write (Memory.write (Memory.write [] 5 1#8) 3 2#8) 5 0#8 = [(3, 2#8)] ∧
    Memory.write (Memory.write [] 5 1#8) 3 2#8 = Memory.write (Memory.write [] 3 2#8) 5 1#8 := by decide

/-! ## Witnesses: the hypotheses of each statement are met, each clause at its boundaries -/

theorem test_witness_EncodedInstructionDecodes : (Instr.mac (.unsupported 4)).wellFormed = true ∧
    (Instr.hotp (.unsupported 7)).wellFormed = true := by decide
theorem test_witness_DecodedWordEncodes : decode 0x84 = .ok (.fmt true) ∧ decode 0x73 = .ok (.trunc (.unsupported 7)) := by decide
theorem test_witness_LegalWordsAreTheFifteen : (0x35#32, "HOTP.SHA512") ∈ commandTable ∧ 0x42#32 ∈ unsupportedWords ∧
    0x82#32 ∉ commandTable.map Prod.fst ∧ 0x82#32 ∉ unsupportedWords ∧ State.reset.engine = .idle := by decide
theorem test_witness_IllegalCommandExactly : 
    (∀ v ∈ [0x101, 0x000, 0x006, 0x00F, 0x011, 0x081, 0x074, 0x085], IllegalWord v) ∧ (∀ v ∈ [0x084, 0x075, 0x001], ¬ IllegalWord v) ∧
    issueCommand 0x075 State.reset = .next (State.reset.reject .invalidHashAlgorithm) := ⟨by decide, by decide, rfl⟩
theorem test_witness_UnsupportedSelectorRejected : 0x75 / 128 = 0 ∧ 0x75 % 16 = 5 ∧ 4 ≤ 0x75 / 16 % 8 ∧ 0x42 % 16 = 2 ∧
    4 ≤ 0x42 / 16 % 8 ∧ 0x43 % 16 = 3 := by decide
theorem test_witness_OverlongKeyRejected :
    let s := { State.reset with keylen := 257#32 }
    s.engine = .idle ∧ AlgSelector.unspecified.resolve = some .sha1 ∧ s.config.keyCapacity < s.keylen.toNat ∧
    exec (.hotp .sha1) s = .next (s.reject .keyLengthError) ∧ s.err ≠ .keyLengthError ∧
    (s.reject .keyLengthError).err = .keyLengthError := ⟨rfl, rfl, by decide, rfl, by decide, rfl⟩
theorem test_witness_FormatRangeRejected :
    let s := { State.reset with val := 1000000#32 }
    s.engine = .idle ∧ 1000000 ≤ s.val.toNat ∧ exec (.fmt false) s = .next (s.reject .formatRangeError) ∧
    s.err ≠ .formatRangeError := ⟨rfl, by decide, rfl, by decide⟩
theorem test_witness_OneErrorByPriority :

    (due (.enc 0)).engine ≠ .idle ∧ State.reset.engine = .idle ∧ (∀ v ∈ [0xF2], IllegalWord v) ∧
    (∀ v ∈ [0x42, 0x35, 0x04, 0x84], ¬ IllegalWord v) ∧ (0x42 % 16 = 2 ∧ 4 ≤ 0x42 / 16 % 8) ∧
    (0x35 % 16 = 5 ∧ 0x35 / 16 % 8 < 4 ∧ State.reset.config.keyCapacity < (257#32).toNat) ∧
    (0x04 % 16 = 4 ∧ 0x04 / 128 % 2 = 0 ∧ 1000000 ≤ (1000000#32).toNat) ∧ 0x84 / 128 % 2 ≠ 0 :=
  ⟨by decide, by decide, by decide, by decide, by decide, by decide, by decide, by decide⟩
theorem test_witness_IssueChangesOnlyErrAndEngine : State.reset.engine = .idle ∧
    exec .enc State.reset = .next (State.reset.accept (.enc 0)) := ⟨rfl, rfl⟩
theorem test_witness_OverrunIsDroppedAndSticky :
    (due (.enc 0)).engine = .busy (.enc 0) ∧
    step { State.reset with ovr := true } = .next ({ State.reset with ovr := true } : State).tick ∧
    completionDue { State.reset with ovr := true, pending := [.write 0x004#12 4 0x100#32] } = none ∧
    (0x100#32).getLsbD 8 = true := ⟨rfl, rfl, rfl, by decide⟩
theorem test_witness_buffer_words : State.reset.config.Legal ∧ Config.Legal ⟨64⟩ ∧ Config.Legal ⟨3840⟩ ∧
    (∀ n ∈ [0x040, 0x044, 0x080, 0x0BC, 0x100, 0x1FC], n % 4 = 0 ∧ InBuffers 256 n) ∧
    (∀ n ∈ [0x03C, 0x048, 0x07C, 0x0C0, 0x0FC, 0x200], ¬ InBuffers 256 n) ∧ (0x1FC#12).toNat = 0x1FC ∧
    State.reset.mem.wf := by decide
theorem test_witness_ReadsReturnTheRegister : hostRead 0x004#12 4 State.reset = .next (State.reset.respond (.data 0#32)) := rfl
theorem test_witness_FailedTransactionChangesNothing : mapped State.reset.config.keyCapacity 0x200#12 = false ∧
    mapped State.reset.config.keyCapacity 0x1FC#12 = true ∧ (0x1FE#12).toNat % 4 ≠ 0 ∧ (0x1FC#12).toNat % 4 = 0 ∧
    hostRead 0x200#12 4 State.reset = .next (State.reset.respond (.busError 0x200#12)) ∧
    hostWrite 0x004#12 2 0x100 State.reset = .next (State.reset.respond (.busError 0x004#12)) :=
  ⟨by decide, by decide, by decide, by decide, rfl, rfl⟩
theorem test_witness_FailedTransactionIsAnswered :
    completionDue { State.reset with pending := [.write 0x004#12 2 0x100] } = none ∧ (2 ≠ 4) ∧
    completionDue (inFlight 1 [.read 0x200#12 4]) = none := by decide
/-- A reset of an idle block that holds a secret clears KEY and KEYLEN (R240). -/
theorem test_reset_idle : seen (hostStep .reset keyed) (fun t => (t.mem, t.keylen)) = some ([], 0#32) := by decide
/-- A block with a secret, with an OTP of an earlier command and with a command in flight meets the invariant; so does one that
has just been reset, but that is a statement. -/
theorem test_witness_StepKeepsTheInvariant :
    let s := { inFlight 2 [] with otpBin := 755224, otp0 := 0x37353532, otp1 := 0x3234 }
    s.Inv ∧ step s = .next s.tick :=
  ⟨⟨by decide, by decide +kernel, by decide +kernel, .inr ⟨by decide, by decide, by decide⟩, ⟨(by decide : secret20.length ≤ 256), rfl⟩⟩, rfl⟩
theorem test_witness_ConfigurationIsFixed : step State.reset = .next State.reset.tick := rfl
theorem test_witness_EncWritesTheCounter : (due (.enc 1)).engine = .busy (.enc 1) ∧ (due (.enc 1)).wait = 0 ∧ (due (.enc 1)).mem.wf := by
  decide
theorem test_witness_MacWritesTheDigest :
    let s := due (.mac .sha1 [] (zeros 8))
    AlgSelector.unspecified.resolve = some .sha1 ∧ s.engine = .busy (.mac .sha1 [] (zeros 8)) ∧ s.wait = 0 ∧ s.mem.wf := by decide
theorem test_witness_TruncWritesTheWindow :
    let s := due (.trunc .sha1 digest0)
    AlgSelector.sha1.resolve = some .sha1 ∧ s.engine = .busy (.trunc .sha1 digest0) ∧ s.wait = 0 ∧ digest0.length = digestLen .sha1 := by
  decide
theorem test_witness_FmtRendersTheValue : (due (.fmt false 999999)).engine = .busy (.fmt false 999999) ∧
    (due (.fmt false 999999)).wait = 0 ∧ (999999#32).toNat < 1000000 ∧ (due (.fmt true 1000000)).engine = .busy (.fmt true 1000000) := by
  decide
theorem test_witness_HotpRendersThePipeline :
    let s := due (.hotp .sha512 [] 1)
    AlgSelector.sha512.resolve = some .sha512 ∧ s.engine = .busy (.hotp .sha512 [] 1) ∧ s.wait = 0 := by decide
/-- EncIsAccepted, TruncIsAccepted, MacIsAccepted and HotpIsAccepted, at KEYLEN = KEY_CAPACITY. -/
theorem test_witness_acceptances :
    let s := { keyed with keylen := 256#32 }
    s.engine = .idle ∧ AlgSelector.sha256.resolve = some .sha256 ∧ s.keylen.toNat ≤ s.config.keyCapacity := by decide
theorem test_witness_FmtIsAccepted :
    let s := { State.reset with val := 999999#32 }
    s.engine = .idle ∧ s.val.toNat < 1000000 ∧ s.val.toNat ≤ 999999 := by decide
/-- HotpIsTheChain and TruncGoesByItsOwnAlgorithm. -/
theorem test_witness_chains : keyed.engine = .idle ∧ AlgSelector.sha512.resolve = some .sha512 ∧ keyed.mem.wf ∧
    keyed.keylen.toNat ≤ keyed.config.keyCapacity := by decide +kernel
theorem test_witness_KeysAreNormalized : blockSize .sha1 < (zeros 65).length ∧ (zeros 64).length = blockSize .sha1 ∧
    (zeros 63).length ≤ blockSize .sha1 ∧ blockSize .sha512 < (zeros 129).length ∧ (zeros 128).length = blockSize .sha512 := by decide
theorem test_witness_CompressionCounts : 64 < (zeros 65).length ∧ 128 < (zeros 129).length ∧
    (zeros 72).length = blockSize .sha256 + 8 ∧ (zeros 192).length = blockSize .sha512 + digestLen .sha512 := by decide
theorem test_witness_digests : (zeros 20).length = 20 ∧ (zeros 32).length = 32 ∧ (zeros 64).length = 64 ∧ 19 ≤ (zeros 19).length := by decide
theorem test_witness_HotpDependsOnItsOperandsOnly :
    let t := { keyed with val := 7#32, mem := Memory.writeBytes keyed.mem 0x114 [1#8] }
    t.engine = .idle ∧ t.keylen = keyed.keylen ∧ t.ctrHi = keyed.ctrHi ∧ t.ctrLo = keyed.ctrLo ∧ t ≠ keyed ∧
    ∀ a, 0x100 ≤ a → a < 0x100 + keyed.keylen.toNat → t.mem.read a = keyed.mem.read a := by
  refine ⟨by decide, by decide, by decide, by decide, by decide +kernel, fun a h1 h2 => ?_⟩
  have h2' : a < 0x114 := h2
  rw [Memory.read_writeBytes (by decide +kernel) 0x114 [1#8] a, if_neg (by omega)]
theorem test_witness_StoringCommandsFrame : keyed.mem.wf ∧
    exec .enc (due (.enc 1)) = .next ((due (.enc 1)).storeBytes msgBase (encodeCounter 1)).retire ∧
    exec (.mac .sha1) keyed = .next (keyed.accept (.mac .sha1 keyed.secret keyed.message)) ∧
    exec (.mac .sha1) { inFlight 1 [] with ovr := true } = .next { inFlight 1 [] with ovr := true } :=
  ⟨by decide +kernel, rfl, rfl, rfl⟩
theorem test_witness_RegisterCommandsFrame :
    exec (.trunc .sha1) keyed = .next (keyed.accept (.trunc .sha1 (keyed.digest 20))) ∧
    exec (.fmt true) (due (.fmt true 7)) = .next (render 7 (due (.fmt true 7))).retire ∧
    exec (.hotp .sha1) (due (.enc 0)) = .next (due (.enc 0)).overrun ∧
    exec (.trunc .sha1) { inFlight 1 [] with ovr := true } = .next { inFlight 1 [] with ovr := true } := ⟨rfl, rfl, rfl, rfl⟩
theorem test_witness_StepRunsTheWrittenCommand : keyed.engine = .idle ∧ decode 0x05 = .ok (.hotp .unspecified) ∧
    { keyed with pending := [.write 0x000#12 4 0x05#32] }.pending = .write 0x000#12 4 0x05#32 :: [] ∧
    (inFlight 1 [.reset]).wait ≠ 0 ∧ (inFlight 1 [.reset]).pending = .reset :: [] ∧ (inFlight 1 []).pending = [] :=
  ⟨rfl, rfl, rfl, by decide, rfl, rfl⟩
/-- StepCompletesTheCommandInFlight and CompletionsLeaveTheInputs. -/
theorem test_witness_completion_due : (inFlight 0 []).engine = .busy (.hotp .sha1 secret20 0) ∧ (inFlight 0 []).wait = 0 ∧
    (inFlight 0 []).mem.wf := by decide +kernel
/-- CommandInFlightIsUntouched, CommandInFlightCompletes and HotpInFlightWritesItsOwnOtp. -/
theorem test_witness_commands_in_flight :
    let s := inFlight 1 [.write 0x008#12 4 0, .poll]
    s.engine = .busy (.hotp .sha1 secret20 0) ∧ s.wait ≠ 0 ∧ s.pending.head? ≠ some .reset ∧ .reset ∉ s.pending := by decide +kernel
theorem test_witness_steps_in_flight : step (inFlight 2 []) = .next (inFlight 1 []) ∧
    ∃ t, step (inFlight 0 []) = .next t := ⟨rfl, _, rfl⟩
theorem test_witness_WaitEndsWithTheCommand : completionDue (inFlight 1 [.poll]) = none ∧ (inFlight 1 [.poll]).pending = .poll :: [] ∧
    completionDue { keyed with pending := [.poll] } = none := by decide
theorem test_witness_KeyStatementLoadsTheSecret : State.reset.config.Legal ∧ State.reset.mem.wf ∧
    ([] : List Byte).length ≤ State.reset.config.keyCapacity ∧ (zeros 256).length ≤ State.reset.config.keyCapacity := by
  decide +kernel
theorem test_witness_EveryCommandRunsFromReset : mnemonic (.trunc .sha256) = some "TRUNC.SHA256" ∧ mnemonic .enc ≠ none := by decide

end Sys2Proof.Tests.Slice0
end

section
/-! KEY_CAPACITY is fixed (spec/00_scope.md R7, spec/10_state.md R20): each part of a step keeps the configuration. -/

namespace Sys2Proof.Machine

/-- No completion writes the configuration. -/
@[simp] theorem Snapshot.effect_config (snap : Snapshot) (s : State) : (snap.effect s).config = s.config := by
  cases snap <;> simp [Snapshot.effect]

/-- A word written to CMD keeps the configuration, whether it is dropped, rejected or accepted. -/
theorem issueCommand_config {v : Word} {s t : State} (h : issueCommand v s = .next t) : t.config = s.config := by
  obtain ⟨-, rfl⟩ | ⟨-, ⟨e, -, rfl⟩ | ⟨snap, rfl⟩⟩ := issueCommand_cases h
  · exact s.overrun_config
  · exact s.reject_config e
  · exact s.accept_config snap

/-- No write of a register reaches the configuration: it is no word of the window. -/
theorem writeReg_config {r : Reg} {v : Word} {s t : State} (h : writeReg r v s = .next t) : t.config = s.config := by
  cases r with
  | cmd => exact issueCommand_config h
  | _ => cases h; simp

/-- No step of the host changes the configuration, reset included. -/
theorem hostStep_config {x : HostStep} {s t : State} (h : hostStep x s = .next t) : t.config = s.config := by
  cases x with
  | read a n => obtain ⟨-, rfl⟩ | ⟨-, rfl⟩ := hostRead_cases h <;> exact s.respond_config _
  | write a n v =>
    obtain ⟨-, rfl⟩ | ⟨-, hw⟩ := hostWrite_cases h
    · exact s.respond_config _
    · exact writeReg_config hw
  | reset => cases h; exact s.hardReset_config
  | poll =>
    obtain rfl | rfl := hostPoll_cases h
    · exact s.requeue_config .poll
    · rfl

/-- Settles O25, by the three things a step can do: a completion, time passing, or a step of the host. -/
theorem configurationIsFixed : Obligations.ConfigurationIsFixed := by
  intro s t h
  obtain ⟨snap, hb, hw, hexec⟩ | ⟨-, -, rfl⟩ | ⟨x, rest, -, -, hhost⟩ := step_cases h
  · rw [exec_due hb hw] at hexec
    cases hexec
    simp
  · exact s.tick_config
  · exact (hostStep_config hhost).trans (s.beginHostStep_config rest)

end Sys2Proof.Machine
end

section
/-! The digests have their lengths (spec/43_sha_functions.md R130, spec/42_keyed_digest.md R115), so MAC fills DIGEST exactly. -/

namespace Sys2Proof.Machine

/-- A hash value has eight words of `w / 8` bytes (R145). -/
@[simp] theorem sha2Bytes_length {w : Nat} (H : Sha2Words w) : (sha2Bytes H).length = 8 * (w / 8) := by
  simp only [sha2Bytes, List.length_append, be_length]
  omega

@[simp] theorem sha_length (alg : HashAlgorithm) (M : List Byte) : (sha alg M).length = digestLen alg := by
  cases alg with
  | sha1 => simp [sha, sha1, digestLen]
  | sha256 => exact sha2Bytes_length _
  | sha512 => exact sha2Bytes_length _

@[simp] theorem hmac_length (alg : HashAlgorithm) (K m : List Byte) : (hmac alg K m).length = digestLen alg :=
  sha_length alg _

theorem digestLen_le_digestLength (alg : HashAlgorithm) : digestLen alg ≤ digestLength := by
  cases alg <;> decide

/-- What MAC stores covers the DIGEST buffer, zeros included (R110). -/
@[simp] theorem macDigest_length (alg : HashAlgorithm) (key msg : List Byte) : (macDigest alg key msg).length = digestLength := by
  have := digestLen_le_digestLength alg
  simp only [macDigest, List.length_append, hmac_length, zeros_length]
  omega

end Sys2Proof.Machine
end

section
/-! The words of the window (spec/20_memory.md R61, R66): which word an address selects, and the bytes it lies on. -/

namespace Sys2Proof.Machine

/-- An aligned address is the offset of its word. -/
theorem wordOffset_of_aligned {a : Addr} (h : a.toNat % 4 = 0) : wordOffset a = a.toNat := by
  unfold wordOffset
  omega

/-- A mapped address selects a word that the block has (R61). -/
theorem regAt_present {cap : Nat} {a : Addr} (h : mapped cap a = true) : (regAt (wordOffset a)).present cap = true := by
  have hranges := of_decide_eq_true h
  unfold regAt
  split
  · split <;> rfl
  · split
    · refine decide_eq_true ?_
      simp only [msgBase, digestBase] at *
      omega
    · split <;> refine decide_eq_true ?_ <;> simp only [digestBase, keyBase] at * <;> omega

/-- The word of an aligned buffer address is mapped (R61). -/
theorem mapped_of_inBuffers {cap : Nat} {a : Addr} (ha : a.toNat % 4 = 0) (h : InBuffers cap a.toNat) : mapped cap a = true := by
  refine decide_eq_true ?_
  rw [wordOffset_of_aligned ha]
  simp only [InBuffers, msgBase, msgLength, digestBase, digestLength, keyBase] at h
  omega

/-- The word at an aligned offset from MSG on is the buffer word there. -/
theorem readReg_regAt_buffer (s : State) {o : Nat} (ho : o % 4 = 0) (h : msgBase ≤ o) :
    readReg s (regAt o) = s.mem.readWord o := by
  simp only [msgBase] at h
  unfold regAt
  rw [if_neg (by omega)]
  split
  · simp only [readReg, Reg.offset, msgBase]
    congr 1; omega
  · split <;> simp only [readReg, Reg.offset, digestBase, keyBase] at * <;> congr 1 <;> omega

end Sys2Proof.Machine
end

section
/-! The invariant (spec/10_state.md R22 to R41, spec/30_encoding.md R87 to R91): each operation of Machine/Ops.lean keeps it, so each
command and each step of the host does. An operation that writes no field the invariant speaks of keeps it as it stands. -/

namespace Sys2Proof.Machine

/-! ## The parts of the invariant -/

theorem engineSound_of_idle {s : State} (h : s.engine = .idle) : s.EngineSound ↔ s.wait = 0 := by
  simp only [State.EngineSound, h]

theorem engineSound_of_busy {s : State} {snap : Snapshot} (h : s.engine = .busy snap) :
    s.EngineSound ↔ snap.Sound s.config.keyCapacity ∧ s.err = .ok := by
  simp only [State.EngineSound, h]

theorem State.Inv.legal {s : State} (h : s.Inv) : s.config.Legal := h.1

theorem State.Inv.snapshotSound {s : State} {snap : Snapshot} (h : s.Inv) (hb : s.engine = .busy snap) :
    snap.Sound s.config.keyCapacity := by
  obtain ⟨-, -, -, -, heng⟩ := h
  exact ((engineSound_of_busy hb).1 heng).1

/-- A value below the modulus fits OTP_BIN, so rendering it leaves one OTP (R171). -/
theorem render_otpSound {n : Nat} (h : n < otpModulus) (s : State) : (render n s).OtpSound := by
  have hn : (BitVec.ofNat 20 n).toNat = n := by
    unfold otpModulus at h
    rw [BitVec.toNat_ofNat]
    omega
  exact .inr (by simpa [hn] using h)

/-! ## The operations -/

/-- Bytes stored inside the buffers. -/
theorem State.Inv.storeBytes {s : State} {a : Nat} {bs : List Byte} (h : s.Inv)
    (ha : ∀ x, a ≤ x → x < a + bs.length → InBuffers s.config.keyCapacity x) : (s.storeBytes a bs).Inv := by
  obtain ⟨hcfg, hwf, hbuf, hotp, heng⟩ := h
  refine ⟨hcfg, Memory.wf_writeBytes hwf a bs, fun c hc => ?_, hotp, heng⟩
  obtain ⟨hlo, hhi⟩ | hold := Memory.mem_writeBytes hc
  · exact ha c.1 hlo hhi
  · exact hbuf c hold

/-- A word stored inside the buffers: its four bytes. -/
theorem State.Inv.storeWord {s : State} {a : Nat} (h : s.Inv)
    (ha : ∀ x, a ≤ x → x < a + 4 → InBuffers s.config.keyCapacity x) (v : Word) : (s.storeWord a v).Inv :=
  h.storeBytes (by simpa using ha)

theorem State.Inv.render {s : State} {n : Nat} (h : s.Inv) (hn : n < otpModulus) : (render n s).Inv := by
  obtain ⟨hcfg, hwf, hbuf, -, heng⟩ := h
  exact ⟨hcfg, hwf, hbuf, render_otpSound hn s, heng⟩

theorem State.Inv.reject {s : State} (h : s.Inv) (hi : s.engine = .idle) (e : ErrorCode) : (s.reject e).Inv := by
  obtain ⟨hcfg, hwf, hbuf, hotp, heng⟩ := h
  rw [engineSound_of_idle hi] at heng
  exact ⟨hcfg, hwf, hbuf, hotp, (engineSound_of_idle (s := s.reject e) hi).2 heng⟩

/-- Acceptance of a snapshot within its bounds: ERR becomes 0 (R87). -/
theorem State.Inv.accept {s : State} {snap : Snapshot} (h : s.Inv) (hs : snap.Sound s.config.keyCapacity) : (s.accept snap).Inv := by
  obtain ⟨hcfg, hwf, hbuf, hotp, -⟩ := h
  exact ⟨hcfg, hwf, hbuf, hotp, hs, rfl⟩

/-- The engine retires when no latency is left (R89, R91). -/
theorem State.Inv.retire {s : State} (h : s.Inv) (hw : s.wait = 0) : s.retire.Inv := by
  obtain ⟨hcfg, hwf, hbuf, hotp, -⟩ := h
  exact ⟨hcfg, hwf, hbuf, hotp, hw⟩

/-- A host step passes: an idle engine, which awaits nothing, still awaits nothing. -/
theorem State.Inv.tick {s : State} (h : s.Inv) : s.tick.Inv := by
  obtain ⟨hcfg, hwf, hbuf, hotp, heng⟩ := h
  refine ⟨hcfg, hwf, hbuf, hotp, ?_⟩
  cases hb : s.engine with
  | idle =>
    rw [engineSound_of_idle hb] at heng
    exact (engineSound_of_idle (s := s.tick) hb).2 (by simp [heng])
  | busy snap =>
    rw [engineSound_of_busy hb] at heng
    exact (engineSound_of_busy (s := s.tick) hb).2 heng

theorem State.Inv.beginHostStep {s : State} (h : s.Inv) (rest : List HostStep) : (s.beginHostStep rest).Inv := h.tick

theorem State.Inv.writeStatus {s : State} (h : s.Inv) (v : Word) : (s.writeStatus v).Inv := by
  unfold State.writeStatus
  split <;> exact h

/-- Reset leaves everything but the configuration at its value of R42, whatever went before. -/
theorem hardReset_inv {s : State} (h : s.config.Legal) : s.hardReset.Inv :=
  ⟨h, Memory.wf_nil, by simp, .inl ⟨rfl, rfl, rfl⟩, rfl⟩

/-! ## Acceptance: what a command captures is within its bounds -/

/-- A check that passes hands its value to the capture (R205). -/
theorem checked_eq_ok {α : Type} {check : Except ErrorCode α} {capture : α → Except ErrorCode Snapshot} {snap : Snapshot} :
    checked check capture = .ok snap ↔ ∃ x, check = .ok x ∧ capture x = .ok snap := by
  cases check <;> simp [checked]

theorem checkKeyLength_eq_ok {s : State} {u : Unit} : checkKeyLength s = .ok u ↔ s.keylen.toNat ≤ s.config.keyCapacity := by
  unfold checkKeyLength
  split <;> simp <;> omega

theorem checkFormatRange_eq_ok {reduce : Bool} {s : State} {u : Unit} :
    checkFormatRange reduce s = .ok u ↔ (reduce = false → s.val.toNat < otpModulus) := by
  unfold checkFormatRange
  split <;> simp_all

theorem captureEnc_sound {s : State} {snap : Snapshot} (h : captureEnc s = .ok snap) : snap.Sound s.config.keyCapacity := by
  cases h
  trivial

theorem captureMac_sound {s : State} {sel : AlgSelector} {snap : Snapshot} (h : captureMac sel s = .ok snap) :
    snap.Sound s.config.keyCapacity := by
  obtain ⟨alg, -, h⟩ := checked_eq_ok.1 h
  obtain ⟨_, hk, h⟩ := checked_eq_ok.1 h
  cases h
  exact ⟨by simpa [State.secret] using checkKeyLength_eq_ok.1 hk, by simp [State.message]⟩

theorem captureTrunc_sound {s : State} {sel : AlgSelector} {snap : Snapshot} (h : captureTrunc sel s = .ok snap) :
    snap.Sound s.config.keyCapacity := by
  obtain ⟨alg, -, h⟩ := checked_eq_ok.1 h
  cases h
  simp [Snapshot.Sound, State.digest]

theorem captureFmt_sound {s : State} {reduce : Bool} {snap : Snapshot} (h : captureFmt reduce s = .ok snap) :
    snap.Sound s.config.keyCapacity := by
  obtain ⟨_, hr, h⟩ := checked_eq_ok.1 h
  cases h
  exact checkFormatRange_eq_ok.1 hr

theorem captureHotp_sound {s : State} {sel : AlgSelector} {snap : Snapshot} (h : captureHotp sel s = .ok snap) :
    snap.Sound s.config.keyCapacity := by
  obtain ⟨alg, -, h⟩ := checked_eq_ok.1 h
  obtain ⟨_, hk, h⟩ := checked_eq_ok.1 h
  cases h
  simpa [Snapshot.Sound, State.secret] using checkKeyLength_eq_ok.1 hk

/-- Issuing keeps the invariant if the capture respects the bounds. -/
theorem lifecycle_idle_inv {capture : State → Except ErrorCode Snapshot} {complete : Snapshot → Option (State → State)} {s t : State}
    (hs : s.Inv) (hi : s.engine = .idle) (hc : ∀ snap, capture s = .ok snap → snap.Sound s.config.keyCapacity)
    (h : lifecycle capture complete s = .next t) : t.Inv := by
  rw [lifecycle_idle hi] at h
  split at h <;> cases h
  · exact hs.reject hi _
  · exact hs.accept (hc _ ‹_›)

/-- A command issued to an idle engine keeps the invariant. -/
theorem exec_idle_inv {i : Instr} {s t : State} (hs : s.Inv) (hi : s.engine = .idle) (h : exec i s = .next t) : t.Inv := by
  cases i with
  | enc => exact lifecycle_idle_inv (complete := completeEnc) hs hi (fun _ => captureEnc_sound) h
  | mac sel => exact lifecycle_idle_inv (complete := completeMac sel) hs hi (fun _ => captureMac_sound) h
  | trunc sel => exact lifecycle_idle_inv (complete := completeTrunc sel) hs hi (fun _ => captureTrunc_sound) h
  | fmt reduce => exact lifecycle_idle_inv (complete := completeFmt reduce) hs hi (fun _ => captureFmt_sound) h
  | hotp sel => exact lifecycle_idle_inv (complete := completeHotp sel) hs hi (fun _ => captureHotp_sound) h

/-! ## Completion -/

/-- FMT renders a value below the modulus: R = 1 reduces it, and R = 0 was checked at acceptance (R170). -/
theorem fmtValue_lt {reduce : Bool} {val : Word} (h : reduce = false → val.toNat < otpModulus) : fmtValue reduce val < otpModulus := by
  cases reduce with
  | false => exact h rfl
  | true => exact Nat.mod_lt _ (by decide)

/-- The writes of a sound command keep the invariant: ENC and MAC store inside MSG and DIGEST, FMT and HOTP render one OTP. -/
theorem State.Inv.effect {s : State} {snap : Snapshot} (h : s.Inv) (hs : snap.Sound s.config.keyCapacity) : (snap.effect s).Inv := by
  cases snap with
  | enc ctr =>
    refine h.storeBytes fun x hlo hhi => .inl ⟨hlo, ?_⟩
    simpa [encodeCounter, msgLength] using hhi
  | mac alg key msg =>
    refine h.storeBytes fun x hlo hhi => .inr (.inl ⟨hlo, ?_⟩)
    simpa using hhi
  | trunc alg dig => exact h
  | fmt reduce val => exact h.render (fmtValue_lt hs)
  | hotp alg key ctr => exact h.render (Nat.mod_lt _ (by decide))

/-- The completion of the command in flight keeps the invariant. -/
theorem exec_due_inv {s t : State} {snap : Snapshot} (hs : s.Inv) (hb : s.engine = .busy snap) (hw : s.wait = 0)
    (h : exec snap.command s = .next t) : t.Inv := by
  have hwait : (snap.effect s).wait = 0 := by cases snap <;> exact hw
  rw [exec_due hb hw] at h
  cases h
  exact (hs.effect (hs.snapshotSound hb)).retire hwait

/-! ## The host's steps -/

/-- A word written to CMD: a busy engine drops it, an idle one rejects or accepts it. -/
theorem issueCommand_inv {v : Word} {s t : State} (hs : s.Inv) (h : issueCommand v s = .next t) : t.Inv := by
  unfold issueCommand at h
  split at h
  · cases h; exact hs
  · rename_i hi
    split at h
    · cases h; exact hs.reject hi _
    · exact exec_idle_inv hs hi h

/-- A write to a word that the block has. The four bytes of a KEY word lie in KEY, as KEY_CAPACITY is a multiple of 4 (R7). -/
theorem writeReg_inv {r : Reg} {v : Word} {s t : State} (hs : s.Inv) (hr : r.present s.config.keyCapacity = true)
    (h : writeReg r v s = .next t) : t.Inv := by
  obtain ⟨hcap, -, -⟩ := hs.legal
  cases r with
  | cmd => exact issueCommand_inv hs h
  | status => cases h; exact hs.writeStatus v
  | msg k | digest k | key k =>
    cases h
    simp only [Reg.present, decide_eq_true_eq] at hr
    refine hs.storeWord (fun x hlo hhi => ?_) v
    simp only [Reg.offset, msgBase, digestBase, keyBase] at hlo hhi
    simp only [InBuffers, msgBase, msgLength, digestBase, digestLength, keyBase]
    omega
  | _ => cases h; exact hs

/-- Every step of the host keeps the invariant, reset included. -/
theorem hostStep_inv {x : HostStep} {s t : State} (hs : s.Inv) (h : hostStep x s = .next t) : t.Inv := by
  cases x with
  | read a n => obtain ⟨-, rfl⟩ | ⟨-, rfl⟩ := hostRead_cases h <;> exact hs
  | write a n v =>
    obtain ⟨-, rfl⟩ | ⟨hserved, hw⟩ := hostWrite_cases h
    · exact hs
    · exact writeReg_inv hs (regAt_present (served_iff.1 hserved).2) hw
  | reset => cases h; exact hardReset_inv hs.legal
  | poll => obtain rfl | rfl := hostPoll_cases h <;> exact hs

/-- Settles O24, by the three things a step can do: a completion, time passing, or a step of the host. -/
theorem stepKeepsTheInvariant : Obligations.StepKeepsTheInvariant := by
  intro s t hs h
  obtain ⟨snap, hb, hw, hexec⟩ | ⟨-, -, rfl⟩ | ⟨x, rest, -, -, hhost⟩ := step_cases h
  · exact exec_due_inv hs hb hw hexec
  · exact hs.tick
  · exact hostStep_inv (hs.beginHostStep rest) hhost

/-- Settles O23: the state after reset is what asserting reset leaves, and KEY_CAPACITY is 256. -/
theorem resetMeetsTheInvariant : Obligations.ResetMeetsTheInvariant :=
  hardReset_inv (s := State.reset) (by decide)

end Sys2Proof.Machine
end

section
/-! What the words of the window read (spec/10_state.md R22 to R33, R42, spec/20_memory.md R64 to R66). -/

namespace Sys2Proof.Machine

/-- Appending as arithmetic: the bits put in front weigh the width of those behind. -/
theorem append_toNat {w n : Nat} (x : BitVec w) (y : BitVec n) : (x ++ y).toNat = x.toNat * 2 ^ n + y.toNat := by
  rw [BitVec.toNat_append, ← Nat.shiftLeft_add_eq_or_of_lt y.isLt, Nat.shiftLeft_eq]

/-! ## What each word reads -/

theorem Engine.isBusy_iff {e : Engine} : e.isBusy = true ↔ ∃ snap, e = .busy snap := by
  cases e <;> simp [Engine.isBusy]

theorem Engine.isBusy_toNat (e : Engine) : e.isBusy.toNat = if e = .idle then 0 else 1 := by
  cases e <;> rfl

/-- STATUS as a number: OVR weighs 256, the error code 16 and BUSY 1 (R23). -/
theorem statusWord_toNat (s : State) :
    s.statusWord.toNat = 256 * s.ovr.toNat + 16 * s.err.code.toNat + s.engine.isBusy.toNat := by
  simp only [State.statusWord, append_toNat, BitVec.toNat_ofBool, BitVec.toNat_ofNat]
  omega

/-- OTP1 holds its two characters in bits 31:16 (R30). -/
theorem otp1_append_zeros (chars : BitVec 16) : chars ++ 0#16 = BitVec.ofNat 32 (chars.toNat * 65536) := by
  apply BitVec.eq_of_toNat_eq
  rw [append_toNat, BitVec.toNat_ofNat, BitVec.toNat_ofNat]
  omega

/-- A buffer word is its four bytes, the first in bits 31:24 (R64). -/
theorem readWord_eq_append (m : Memory) (a : Nat) :
    m.readWord a = m.read a ++ m.read (a + 1) ++ m.read (a + 2) ++ m.read (a + 3) := by
  apply BitVec.eq_of_toNat_eq
  simp only [Memory.readWord, Memory.readBytes, beval, List.foldl, BitVec.toNat_ofNat, append_toNat (n := 8), Nat.add_assoc,
    Nat.reduceAdd]
  omega

theorem readWord_nil (a : Nat) : Memory.readWord [] a = 0#32 := by
  simp [readWord_eq_append, Memory.read, Memory.unlisted]

/-! ## Served reads -/

/-- An aligned word below MSG reads as its register, in every block. -/
theorem memRead_register (s : State) {a : Addr} (ha : a.toNat % 4 = 0) (h : a.toNat < 0x028) :
    memRead a 4 s = .ok (readReg s (regAt a.toNat)) := by
  have hw := wordOffset_of_aligned ha
  have hs : served s a 4 = true := served_iff.2 ⟨⟨rfl, ha⟩, decide_eq_true (.inl (by omega))⟩
  rw [memRead, if_pos hs, hw]

/-- An aligned word of a buffer reads as its four bytes. -/
theorem memRead_buffer {s : State} {a : Addr} (ha : a.toNat % 4 = 0) (h : InBuffers s.config.keyCapacity a.toNat) :
    memRead a 4 s = .ok (s.mem.readWord a.toNat) := by
  have hs : served s a 4 = true := served_iff.2 ⟨⟨rfl, ha⟩, mapped_of_inBuffers ha h⟩
  have hbase : msgBase ≤ a.toNat := by
    simp only [InBuffers, msgBase, digestBase, keyBase] at *
    omega
  rw [memRead, if_pos hs, wordOffset_of_aligned ha, readReg_regAt_buffer s ha hbase]

/-! ## The obligations -/

/-- Settles O13: the fields of STATUS are the digits of its number. -/
theorem statusReadsItsFields : Obligations.StatusReadsItsFields := by
  intro s
  have hovr := s.ovr.toNat_le
  have hcode := s.err.code.isLt
  have hbusy := s.engine.isBusy.toNat_le
  refine ⟨s.statusWord, memRead_register s (by decide) (by decide), ?_⟩
  rw [statusWord_toNat, ← Engine.isBusy_iff, ← Bool.toNat_eq_one, ← Bool.toNat_eq_one]
  omega

/-- Settles O14: the words below MSG by their registers, the buffer words by their bytes; a read only adds to the host's trace. -/
theorem readsReturnTheRegister : Obligations.ReadsReturnTheRegister := by
  intro s _
  have reads {a : Addr} {v : Word} (ha : a.toNat % 4 = 0 ∧ a.toNat < 0x028) (hv : readReg s (regAt a.toNat) = v) :
      memRead a 4 s = .ok v := hv ▸ memRead_register s ha.1 ha.2
  refine ⟨reads (by decide) rfl, reads (by decide) ?status, reads (by decide) rfl, reads (by decide) rfl, reads (by decide) rfl,
    reads (by decide) rfl, reads (by decide) (BitVec.ofNat_toNat 32 s.toff).symm,
    reads (by decide) (BitVec.ofNat_toNat 32 s.otpBin).symm, reads (by decide) rfl,
    reads (by decide) (otp1_append_zeros s.otp1), fun a ha hbuf => ?buffer, fun a n t h => ?noSideEffect⟩
  case status =>
    have hovr : (if s.ovr then 256 else 0) = 256 * s.ovr.toNat := by cases s.ovr <;> rfl
    change s.statusWord = _
    rw [hovr, ← Engine.isBusy_toNat, ← statusWord_toNat, BitVec.ofNat_toNat, BitVec.setWidth_eq]
  case buffer => rw [memRead_buffer ha hbuf, readWord_eq_append]
  case noSideEffect => obtain ⟨-, rfl⟩ | ⟨-, rfl⟩ := hostRead_cases h <;> exact ⟨rfl, rfl⟩

/-- Settles O20: the buffers list nothing after reset, so each of their bytes reads as an unlisted one. -/
theorem resetValuesAreZero : Obligations.ResetValuesAreZero := by
  refine ⟨fun r => ?_, fun _ => rfl, rfl, rfl, rfl⟩
  cases r with
  | msg k | digest k | key k => exact readWord_nil _
  | _ => rfl

end Sys2Proof.Machine
end

section
/-! What a write to a word of the window does (spec/20_memory.md R61 to R67): the mapped addresses, the registers, and the buffer
words with their bytes. -/

namespace Sys2Proof.Machine

/-! ## The map -/

/-- `a & ~3` drops the two lowest bits. -/
theorem and_not_three_toNat (a : Addr) : (a &&& ~~~3#12).toNat = wordOffset a := by
  have hmask : ~~~3#12 = BitVec.allOnes 12 <<< 2 := by decide
  rw [hmask, ← BitVec.shiftLeft_ushiftRight, BitVec.toNat_shiftLeft, BitVec.toNat_ushiftRight, Nat.shiftLeft_eq,
    Nat.shiftRight_eq_div_pow, wordOffset]
  omega

/-- Settles O17: `a & ~3` is a multiple of 4, so the MSG range holds its two words and no other. -/
theorem mappedAddressesAreTheMaps : Obligations.MappedAddressesAreTheMaps := by
  intro cap a
  have hword : wordOffset a % 4 = 0 := Nat.mul_mod_left _ 4
  simp only [and_not_three_toNat, mapped, decide_eq_true_eq]
  omega

/-! ## Served writes -/

/-- A 32-bit write at an aligned mapped address is the write of the word there (R62). -/
theorem memWrite_aligned {s : State} {a : Addr} (v : Word) (ha : a.toNat % 4 = 0) (hmap : mapped s.config.keyCapacity a = true) :
    memWrite a 4 v s = writeReg (regAt a.toNat) v s := by
  rw [memWrite, if_pos (served_iff.2 ⟨⟨rfl, ha⟩, hmap⟩), wordOffset_of_aligned ha]

/-- An aligned word below MSG takes a write as its register does, in every block. -/
theorem memWrite_register (s : State) (v : Word) {a : Addr} (ha : a.toNat % 4 = 0) (h : a.toNat < 0x028) :
    memWrite a 4 v s = writeReg (regAt a.toNat) v s := by
  have hw := wordOffset_of_aligned ha
  exact memWrite_aligned v ha (decide_eq_true (.inl (by omega)))

/-- A write to the word at an aligned offset from MSG on stores the buffer word there. -/
theorem writeReg_regAt_buffer (s : State) (v : Word) {o : Nat} (ho : o % 4 = 0) (h : msgBase ≤ o) :
    writeReg (regAt o) v s = .next (s.storeWord o v) := by
  simp only [msgBase] at h
  unfold regAt
  rw [if_neg (by omega)]
  split
  · simp only [writeReg, Reg.offset, msgBase]
    congr 2; omega
  · split <;> simp only [writeReg, Reg.offset, digestBase, keyBase] at * <;> congr 2 <;> omega

/-- An aligned word of a buffer takes a write as its four bytes. -/
theorem memWrite_buffer {s : State} {a : Addr} (v : Word) (ha : a.toNat % 4 = 0) (h : InBuffers s.config.keyCapacity a.toNat) :
    memWrite a 4 v s = .next (s.storeWord a.toNat v) := by
  have hbase : msgBase ≤ a.toNat := by
    simp only [InBuffers, msgBase, digestBase, keyBase] at *
    omega
  rw [memWrite_aligned v ha (mapped_of_inBuffers ha h), writeReg_regAt_buffer s v ha hbase]

/-- A write to STATUS keeps OVR only where bit 8 is 0, and changes nothing else (R66). -/
theorem writeStatus_eq (v : Word) (s : State) : s.writeStatus v = { s with ovr := s.ovr && !v.getLsbD 8 } := by
  unfold State.writeStatus
  cases v.getLsbD 8
  · simp
  · simp [State.clearOverrun]

/-! ## The bytes of a stored word -/

/-- Byte `j` of a word stored is its bits `[31-8j : 24-8j]` (R64). -/
theorem read_writeWord_byte {m : Memory} (hm : m.wf) (a : Nat) (v : Word) {j : Nat} (hj : j < 4) :
    (m.writeWord a v).read (a + j) = BitVec.ofNat 8 (v.toNat / 2 ^ (24 - 8 * j)) := by
  rw [Memory.writeWord, Memory.read_writeBytes hm, be_length, if_pos (by omega), Nat.add_sub_cancel_left, be_getD 4 _ j hj]
  congr 3
  omega

/-- A word stored leaves every byte but its four alone. -/
theorem read_writeWord_outside {m : Memory} (hm : m.wf) (a : Nat) (v : Word) {x : Nat} (hx : x < a ∨ a + 4 ≤ x) :
    (m.writeWord a v).read x = m.read x := by
  rw [Memory.writeWord, Memory.read_writeBytes hm, be_length, if_neg (by omega)]

/-- A word stored reads back. -/
theorem readWord_writeWord {m : Memory} (hm : m.wf) (a : Nat) (v : Word) : (m.writeWord a v).readWord a = v := by
  have hbyte0 := read_writeWord_byte hm a v (j := 0) (by decide)
  rw [Nat.add_zero] at hbyte0
  rw [readWord_eq_append, hbyte0, read_writeWord_byte hm a v (by decide), read_writeWord_byte hm a v (by decide),
    read_writeWord_byte hm a v (by decide)]
  apply BitVec.eq_of_toNat_eq
  simp only [append_toNat, BitVec.toNat_ofNat]
  omega

/-! ## The obligations -/

/-- Settles O16: the memory after the write is the one with the word stored at the address. -/
theorem bufferWordsPackBigEndian : Obligations.BufferWordsPackBigEndian := by
  intro s a v _ hm ha hbuf
  refine ⟨s.mem.writeWord a.toNat v, memWrite_buffer v ha hbuf, Memory.wf_writeWord hm _ v,
    fun j hj => read_writeWord_byte hm _ v hj, fun x hx => read_writeWord_outside hm _ v hx, ?readsBack⟩
  case readsBack =>
    have hread := memRead_buffer (s := s.storeWord a.toNat v) ha hbuf
    rwa [State.storeWord_mem, readWord_writeWord hm] at hread

/-- Settles O15: the words below MSG, each by what its register does with the write. -/
theorem writesStoreTheRegister : Obligations.WritesStoreTheRegister := by
  intro s v
  have writes {a : Addr} {o : Host.Outcome State Fault Refusal} (ha : a.toNat % 4 = 0 ∧ a.toNat < 0x028)
      (hv : writeReg (regAt a.toNat) v s = o) : memWrite a 4 v s = o := hv ▸ memWrite_register s v ha.1 ha.2
  refine ⟨writes (by decide) rfl, writes (by decide) ?status, writes (by decide) rfl, writes (by decide) rfl,
    writes (by decide) rfl, writes (by decide) rfl, writes (by decide) rfl, writes (by decide) rfl, writes (by decide) rfl,
    writes (by decide) rfl⟩
  case status => exact congrArg Host.Outcome.next (writeStatus_eq v s)

end Sys2Proof.Machine
end

section
/-! The command words (spec/30_encoding.md R80 to R86): a word and its fields, decoding and encoding as inverses, and the legal words. -/

namespace Sys2Proof.Machine

/-! ## A word and its fields -/

/-- ALG and R of a word put together from its fields (R80); OP and RSV are `fields_of_word`. -/
theorem algField_reduceField_wordOfFields (r : BitVec 1) (alg : BitVec 3) (op : BitVec 4) :
    algField (wordOfFields r alg op) = alg ∧ reduceField (wordOfFields r alg op) = r.getLsbD 0 := by
  revert r alg op; decide +kernel

/-- A word whose RSV is 0 is put together from its other fields (R80). -/
theorem wordOfFields_fields {v : Word} (h : reservedField v = 0#24) :
    wordOfFields (BitVec.ofBool (reduceField v)) (algField v) (opField v) = v := by
  have hrsv : v.toNat / 256 % 2 ^ 24 = 0 := by
    simpa [reservedField, BitVec.extractLsb'_toNat, Nat.shiftRight_eq_div_pow] using congrArg BitVec.toNat h
  have hreduce : (reduceField v).toNat = v.toNat / 128 % 2 := Nat.toNat_testBit v.toNat 7
  apply BitVec.eq_of_toNat_eq
  simp only [wordOfFields, append_toNat, BitVec.toNat_ofBool, hreduce, algField, opField, BitVec.extractLsb'_toNat,
    Nat.shiftRight_eq_div_pow, BitVec.toNat_ofNat]
  omega

/-! ## Selectors -/

/-- A selector within its range is the one its field's value stands for (R82). -/
theorem selectorOfField_fieldOfSelector {sel : AlgSelector} (h : sel.wellFormed = true) :
    selectorOfField (fieldOfSelector sel) = sel := by
  cases sel with
  | unsupported code => revert h; revert code; decide
  | _ => rfl

/-- Every value of the field stands for a selector within its range, which has that value (R82). -/
theorem selectorOfField_wellFormed (a : BitVec 3) :
    (selectorOfField a).wellFormed = true ∧ fieldOfSelector (selectorOfField a) = a := by
  revert a; decide

/-! ## Decoding and encoding are inverse -/

/-- Settles O2: each field of the instruction's word is read back as it was put there. -/
theorem encodedInstructionDecodes : Obligations.EncodedInstructionDecodes := by
  intro i hi
  have fields (r : BitVec 1) (alg : BitVec 3) (op : BitVec 4) := And.intro
    (Laws.EncodedFields.fields_of_word r alg op) (algField_reduceField_wordOfFields r alg op)
  cases i with
  | enc => rfl
  | fmt reduce => cases reduce <;> rfl
  | mac sel | trunc sel | hotp sel =>
    simp [decode, encode, fields, withoutReduce, selectorOfField_fieldOfSelector hi]

theorem withoutReduce_eq_ok {r : Bool} {i j : Instr} (h : withoutReduce r i = .ok j) : r = false ∧ j = i := by
  cases r <;> simp_all [withoutReduce]

/-- Settles O3: a word that decodes has RSV = 0, so it is its other fields put together, and those are the ones the instruction's
word has. -/
theorem decodedWordEncodes : Obligations.DecodedWordEncodes := by
  intro v i h
  unfold decode at h
  split at h
  · cases h
  · rename_i hrsv
    rw [← wordOfFields_fields (not_not.1 hrsv)]
    generalize reduceField v = r, algField v = alg, opField v = op at h
    obtain ⟨hsel, hfield⟩ := selectorOfField_wellFormed alg
    have hop {n : Nat} (hn : op.toNat = n) : op = BitVec.ofNat 4 n := BitVec.eq_of_toNat_eq (by simp [← hn])
    split at h
    case h_1 hn =>
      split at h
      · cases h
      · rename_i halg
        obtain ⟨rfl, rfl⟩ := withoutReduce_eq_ok h
        rw [not_not.1 halg, hop hn]
        exact ⟨rfl, rfl⟩
    case h_4 hn =>
      split at h
      · cases h
      · rename_i halg
        cases h
        rw [not_not.1 halg, hop hn]
        exact ⟨rfl, rfl⟩
    case h_2 hn | h_3 hn | h_5 hn =>
      obtain ⟨rfl, rfl⟩ := withoutReduce_eq_ok h
      refine ⟨hsel, ?_⟩
      rw [encode, hfield, hop hn]
      rfl
    case h_6 => cases h

/-! ## The legal words -/

/-- The word of a well-formed instruction is one of the table's, or one of the twelve with an unsupported ALG (R86). -/
theorem encode_mem {i : Instr} (h : i.wellFormed = true) : encode i ∈ commandTable.map Prod.fst ∨ encode i ∈ unsupportedWords := by
  cases i with
  | enc => decide
  | fmt reduce => cases reduce <;> decide
  | mac sel | trunc sel | hotp sel =>
    cases sel with
    | unsupported code => revert h; revert code; decide
    | _ => decide

/-- A word that the decoder rejects is an IllegalCommand, whatever the reason (R201). -/
theorem issueCommand_of_decode_error {v : Word} {s : State} {e : DecodeError} (hs : s.engine = .idle) (h : decode v = .error e) :
    issueCommand v s = .next (s.reject .illegalCommand) := by
  have hcode : DecodeError.code e = .illegalCommand := by cases e <;> rfl
  simp only [issueCommand, hs, h, hcode]

/-- An idle engine takes a word that decodes as its instruction (R87). -/
theorem issueCommand_of_decode_ok {v : Word} {s : State} {i : Instr} (hs : s.engine = .idle) (h : decode v = .ok i) :
    issueCommand v s = exec i s := by
  simp only [issueCommand, hs, h]

/-- An idle engine rejects a command whose capture raises an error (R87). -/
theorem lifecycle_rejects {capture : State → Except ErrorCode Snapshot} {complete : Snapshot → Option (State → State)} {s : State}
    {e : ErrorCode} (hs : s.engine = .idle) (hc : capture s = .error e) : lifecycle capture complete s = .next (s.reject e) := by
  rw [lifecycle_idle hs, hc]

/-- An idle engine rejects a command with an unsupported ALG before it looks at any operand (R202, R205). -/
theorem exec_unsupported {i : Instr} {s : State} {c : BitVec 3} (hs : s.engine = .idle)
    (h : i = .mac (.unsupported c) ∨ i = .trunc (.unsupported c) ∨ i = .hotp (.unsupported c)) :
    exec i s = .next (s.reject .invalidHashAlgorithm) := by
  obtain rfl | rfl | rfl := h
  · exact lifecycle_rejects (capture := captureMac (.unsupported c)) (complete := completeMac _) hs rfl
  · exact lifecycle_rejects (capture := captureTrunc (.unsupported c)) (complete := completeTrunc _) hs rfl
  · exact lifecycle_rejects (capture := captureHotp (.unsupported c)) (complete := completeHotp _) hs rfl

/-- The instruction of a word with an unsupported ALG, by its OP (R86). -/
theorem decode_unsupportedWords : ∀ v ∈ unsupportedWords, (algField v).toNat = v.toNat / 16 ∧
    ((v.toNat % 16 = 2 ∧ decode v = .ok (.mac (.unsupported (algField v)))) ∨
      (v.toNat % 16 = 3 ∧ decode v = .ok (.trunc (.unsupported (algField v)))) ∨
      (v.toNat % 16 = 5 ∧ decode v = .ok (.hotp (.unsupported (algField v))))) := by
  intro v hv
  fin_cases hv <;> decide

/-- The instruction of each word of the table has the row's mnemonic (R86). -/
theorem decode_commandTable : ∀ row ∈ commandTable, (decode row.1).toOption.bind mnemonic = some row.2 := by
  decide

/-- Settles O4: the table and the twelve words by their finite lists; a word outside both cannot decode, as it would be the word of a
well-formed instruction. -/
theorem legalWordsAreTheFifteen : Obligations.LegalWordsAreTheFifteen := by
  refine ⟨rfl, by decide, fun row hrow => ?table, fun v hv => ⟨⟨algField v, decode_unsupportedWords v hv⟩, fun s hs => ?unsupported⟩,
    fun v htable hunsupported s hs => ?illegal⟩
  case table =>
    have hrow := decode_commandTable row hrow
    cases hd : decode row.1 with
    | error e => simp [hd, Except.toOption] at hrow
    | ok i => exact ⟨i, rfl, by simpa [hd, Except.toOption] using hrow⟩
  case unsupported =>
    obtain ⟨-, ⟨-, hd⟩ | ⟨-, hd⟩ | ⟨-, hd⟩⟩ := decode_unsupportedWords v hv <;>
      exact (issueCommand_of_decode_ok hs hd).trans (exec_unsupported (c := algField v) hs (by simp))
  case illegal =>
    cases hd : decode v with
    | error e => exact issueCommand_of_decode_error hs hd
    | ok i =>
      obtain ⟨hwf, hword⟩ := decodedWordEncodes v i hd
      exact absurd (hword ▸ encode_mem hwf) (not_or.2 ⟨htable, hunsupported⟩)

/-- Settles O1: the nine words through the decoder. -/
theorem sampleWordsDecode : Obligations.SampleWordsDecode := by
  unfold Obligations.SampleWordsDecode
  decide

end Sys2Proof.Machine
end

section
/-! The two halves of a command's life (spec/30_encoding.md R87 to R91): which commands an idle engine accepts and what they
capture, and what either half leaves unchanged. -/

namespace Sys2Proof.Machine

open Laws.EncodedFields (opOf)

/-! ## Acceptance -/

/-- An idle engine accepts a command whose capture raises no error (R87). -/
theorem lifecycle_accepts {capture : State → Except ErrorCode Snapshot} {complete : Snapshot → Option (State → State)} {s : State}
    {snap : Snapshot} (hs : s.engine = .idle) (hc : capture s = .ok snap) : lifecycle capture complete s = .next (s.accept snap) := by
  rw [lifecycle_idle hs, hc]

/-- The counter is its two registers, CTR_HI in front (R25). -/
theorem counter_eq_append (s : State) : s.counter = s.ctrHi ++ s.ctrLo := by
  rw [State.counter, BitVec.append_def, BitVec.shiftLeftZeroExtend_eq, BitVec.setWidth'_eq]

theorem execMac_accepts {s : State} {sel : AlgSelector} {alg : HashAlgorithm} (hs : s.engine = .idle) (hr : sel.resolve = some alg)
    (hk : s.keylen.toNat ≤ s.config.keyCapacity) : exec (.mac sel) s = .next (s.accept (.mac alg s.secret s.message)) :=
  lifecycle_accepts (complete := completeMac sel) hs (captureMac_ok hr hk)

theorem execTrunc_accepts {s : State} {sel : AlgSelector} {alg : HashAlgorithm} (hs : s.engine = .idle) (hr : sel.resolve = some alg) :
    exec (.trunc sel) s = .next (s.accept (.trunc alg (s.digest (digestLen alg)))) :=
  lifecycle_accepts (complete := completeTrunc sel) hs (captureTrunc_ok hr)

theorem execHotp_accepts {s : State} {sel : AlgSelector} {alg : HashAlgorithm} (hs : s.engine = .idle) (hr : sel.resolve = some alg)
    (hk : s.keylen.toNat ≤ s.config.keyCapacity) : exec (.hotp sel) s = .next (s.accept (.hotp alg s.secret s.counter)) :=
  lifecycle_accepts (complete := completeHotp sel) hs (captureHotp_ok hr hk)

/-- The captured secret is KEYLEN bytes of KEY (R31). -/
theorem secret_length (s : State) : s.secret.length = s.keylen.toNat := Memory.readBytes_length _ _ _

theorem secret_getD (s : State) {i : Nat} (h : i < s.secret.length) : s.secret.getD i 0#8 = s.mem.read (0x100 + i) :=
  Memory.readBytes_getD _ _ _ _ (secret_length s ▸ h)

/-- The table of R82 is what the model resolves. -/
theorem selectorTable : SelectorTable := by
  unfold SelectorTable
  decide

/-- Settles O27. -/
theorem encIsAccepted : Obligations.EncIsAccepted := by
  intro s hs
  refine ⟨_, lifecycle_accepts (capture := captureEnc) (complete := completeEnc) hs rfl, ?_, rfl, rfl⟩
  rw [← counter_eq_append]
  rfl

/-- Settles O42: under its condition the range check passes. -/
theorem fmtIsAccepted : Obligations.FmtIsAccepted := by
  intro s reduce hs hrange
  exact ⟨_, lifecycle_accepts (complete := completeFmt reduce) hs (captureFmt_ok hrange), rfl, rfl, rfl⟩

/-- Settles O29: both selectors of SHA-1 resolve to it, and MAC reads of its selector what it resolves to. -/
theorem macIsAccepted : Obligations.MacIsAccepted := by
  refine ⟨selectorTable, fun s => rfl, fun s sel alg hs hr hk => ?_⟩
  exact ⟨_, s.secret, s.message, execMac_accepts hs hr hk, rfl, ⟨rfl, rfl⟩, secret_length s, fun i hi => secret_getD s hi,
    Memory.readBytes_length _ _ _, fun i hi => Memory.readBytes_getD _ _ _ _ hi⟩

/-- Settles O37: both selectors of SHA-1 resolve to it, and TRUNC reads of its selector what it resolves to. -/
theorem truncIsAccepted : Obligations.TruncIsAccepted := by
  refine ⟨selectorTable, fun s => rfl, fun s sel alg hs hr => ?_⟩
  have hlen : (s.digest (digestLen alg)).length = digestLen alg := Memory.readBytes_length _ _ _
  exact ⟨_, s.digest (digestLen alg), execTrunc_accepts hs hr, rfl, ⟨rfl, rfl⟩, hlen,
    fun i hi => Memory.readBytes_getD _ _ _ _ (hlen ▸ hi)⟩

/-- Settles O45: both selectors of SHA-1 resolve to it, and HOTP reads of its selector what it resolves to. -/
theorem hotpIsAccepted : Obligations.HotpIsAccepted := by
  refine ⟨selectorTable, fun s => rfl, fun s sel alg hs hr hk => ?_⟩
  refine ⟨_, s.secret, execHotp_accepts hs hr hk, ?_, ⟨rfl, rfl⟩, secret_length s, fun i hi => secret_getD s hi⟩
  rw [← counter_eq_append]
  rfl

/-- Settles O10: the command is rejected with an error that is not 0, or accepted. -/
theorem issueChangesOnlyErrAndEngine : Obligations.IssueChangesOnlyErrAndEngine := by
  intro i s t hs h
  obtain ⟨e, ⟨he, -⟩, rfl⟩ | ⟨snap, rfl⟩ := exec_idle_cases hs h
  · exact ⟨rfl, ⟨rfl, rfl⟩, by simp [he, hs]⟩
  · exact ⟨rfl, ⟨rfl, rfl⟩, by simp⟩

/-! ## Everything a command can do, in either half of its life -/

theorem completeEnc_eq_some {snap : Snapshot} {writes : State → State} (h : completeEnc snap = some writes) :
    opOf snap.command = 1#4 ∧ writes = snap.effect := by
  cases snap with
  | enc ctr => cases h; exact ⟨rfl, rfl⟩
  | _ => cases h

theorem completeMac_eq_some {sel : AlgSelector} {snap : Snapshot} {writes : State → State} (h : completeMac sel snap = some writes) :
    opOf snap.command = 2#4 ∧ writes = snap.effect := by
  cases snap with
  | mac alg key msg => exact ⟨rfl, (Option.some.inj (Option.ite_none_right_eq_some.1 h).2).symm⟩
  | _ => cases h

theorem completeTrunc_eq_some {sel : AlgSelector} {snap : Snapshot} {writes : State → State}
    (h : completeTrunc sel snap = some writes) : opOf snap.command = 3#4 ∧ writes = snap.effect := by
  cases snap with
  | trunc alg dig => exact ⟨rfl, (Option.some.inj (Option.ite_none_right_eq_some.1 h).2).symm⟩
  | _ => cases h

theorem completeFmt_eq_some {reduce : Bool} {snap : Snapshot} {writes : State → State} (h : completeFmt reduce snap = some writes) :
    opOf snap.command = 4#4 ∧ writes = snap.effect := by
  cases snap with
  | fmt r val => exact ⟨rfl, (Option.some.inj (Option.ite_none_right_eq_some.1 h).2).symm⟩
  | _ => cases h

theorem completeHotp_eq_some {sel : AlgSelector} {snap : Snapshot} {writes : State → State} (h : completeHotp sel snap = some writes) :
    opOf snap.command = 5#4 ∧ writes = snap.effect := by
  cases snap with
  | hotp alg key ctr => exact ⟨rfl, (Option.some.inj (Option.ite_none_right_eq_some.1 h).2).symm⟩
  | _ => cases h

/-- What a command with this OP does to the state: it is rejected or accepted (R87), it completes a snapshot of its operation (R89),
or it is dropped (R206). -/
def CommandOutcome (op : BitVec 4) (s t : State) : Prop :=
  (s.engine = .idle ∧ ((∃ e, t = s.reject e) ∨ ∃ snap, t = s.accept snap)) ∨
  (∃ snap, s.engine = .busy snap ∧ opOf snap.command = op ∧ t = (snap.effect s).retire) ∨
  (s.engine ≠ .idle ∧ t = s.overrun)

theorem lifecycle_outcome {capture : State → Except ErrorCode Snapshot} {complete : Snapshot → Option (State → State)} {op : BitVec 4}
    {s t : State} (hc : ∀ {snap writes}, complete snap = some writes → opOf snap.command = op ∧ writes = snap.effect)
    (h : lifecycle capture complete s = .next t) : CommandOutcome op s t := by
  obtain ⟨hi, e, -, rfl⟩ | ⟨hi, snap, -, rfl⟩ | ⟨snap, writes, hb, -, hcomplete, rfl⟩ | ⟨hb, rfl⟩ := lifecycle_cases h
  · exact .inl ⟨hi, .inl ⟨e, rfl⟩⟩
  · exact .inl ⟨hi, .inr ⟨snap, rfl⟩⟩
  · obtain ⟨hop, rfl⟩ := hc hcomplete
    exact .inr (.inl ⟨snap, hb, hop, rfl⟩)
  · exact .inr (.inr ⟨fun hi => by simp [hi, Engine.isBusy] at hb, rfl⟩)

theorem exec_outcome {i : Instr} {s t : State} (h : exec i s = .next t) : CommandOutcome (opOf i) s t := by
  cases i with
  | enc => exact lifecycle_outcome (capture := captureEnc) completeEnc_eq_some h
  | mac sel => exact lifecycle_outcome (capture := captureMac sel) completeMac_eq_some h
  | trunc sel => exact lifecycle_outcome (capture := captureTrunc sel) completeTrunc_eq_some h
  | fmt reduce => exact lifecycle_outcome (capture := captureFmt reduce) completeFmt_eq_some h
  | hotp sel => exact lifecycle_outcome (capture := captureHotp sel) completeHotp_eq_some h

/-! ## What a completion leaves unchanged -/

/-- The writes of a completion leave the host alone. -/
theorem effect_sameHost (snap : Snapshot) (s : State) : s.SameHost (snap.effect s) := by
  cases snap <;> exact ⟨rfl, rfl⟩

/-- ENC stores inside MSG. -/
theorem read_effect_enc {s : State} (hm : s.mem.wf) (ctr : DWord) {a : Nat} (ha : a < 0x040 ∨ 0x048 ≤ a) :
    ((Snapshot.enc ctr).effect s).mem.read a = s.mem.read a := by
  have hlen : (encodeCounter ctr).length = 8 := be_length 8 _
  rw [Snapshot.effect, State.storeBytes_mem, Memory.read_writeBytes hm, hlen, msgBase, if_neg (by omega)]

/-- MAC stores inside DIGEST. -/
theorem read_effect_mac {s : State} (hm : s.mem.wf) (alg : HashAlgorithm) (key msg : List Byte) {a : Nat}
    (ha : a < 0x080 ∨ 0x0C0 ≤ a) : ((Snapshot.mac alg key msg).effect s).mem.read a = s.mem.read a := by
  rw [Snapshot.effect, State.storeBytes_mem, Memory.read_writeBytes hm, macDigest_length, digestBase, digestLength, if_neg (by omega)]

/-- No completion stores into KEY. -/
theorem read_effect_key {s : State} (hm : s.mem.wf) (snap : Snapshot) {a : Nat} (ha : 0x100 ≤ a) :
    (snap.effect s).mem.read a = s.mem.read a := by
  cases snap with
  | enc ctr => exact read_effect_enc hm ctr (by omega)
  | mac alg key msg => exact read_effect_mac hm alg key msg (by omega)
  | _ => rfl

/-! ## The step that completes the command in flight -/

/-- The engine's turn (R89, R91). -/
theorem step_due {s : State} {snap : Snapshot} (hb : s.engine = .busy snap) (hw : s.wait = 0) : step s = exec snap.command s := by
  simp only [step, blockStep, completionDue_eq_some.2 ⟨hb, hw⟩]

/-- Settles O52: the command makes its writes, which leave the host alone, and retires. -/
theorem stepCompletesTheCommandInFlight : Obligations.StepCompletesTheCommandInFlight := by
  intro s snap hb hw
  exact ⟨step_due hb hw, _, (step_due hb hw).trans (exec_due hb hw), rfl, effect_sameHost snap s⟩

/-- Settles O54: the completion's writes reach none of these. -/
theorem completionsLeaveTheInputs : Obligations.CompletionsLeaveTheInputs := by
  intro s t snap hb hw hm h
  rw [step_due hb hw, exec_due hb hw] at h
  cases h
  have hkey {a : Nat} (ha : 0x100 ≤ a) := read_effect_key hm snap ha
  cases snap <;> exact ⟨rfl, rfl, rfl, rfl, rfl, fun _ => hkey⟩

/-! ## Frames of the commands -/

/-- What every command does to the host, to ERR and to OVR, and where it leaves the engine. -/
theorem CommandOutcome.status {op : BitVec 4} {s t : State} (h : CommandOutcome op s t) :
    s.SameHost t ∧ (s.engine ≠ .idle → t.err = s.err) ∧ (s.engine = .idle ∨ t.engine ≠ s.engine → t.ovr = s.ovr) ∧
    (s.engine ≠ .idle → t.engine = s.engine ∧ t.ovr = true ∨ t.engine = .idle) := by
  obtain ⟨hi, ⟨e, rfl⟩ | ⟨snap, rfl⟩⟩ | ⟨snap, hb, -, rfl⟩ | ⟨hb, rfl⟩ := h
  · exact ⟨⟨rfl, rfl⟩, fun hn => absurd hi hn, fun _ => rfl, fun hn => absurd hi hn⟩
  · exact ⟨⟨rfl, rfl⟩, fun hn => absurd hi hn, fun _ => rfl, fun hn => absurd hi hn⟩
  · cases snap <;> exact ⟨⟨rfl, rfl⟩, fun _ => rfl, fun _ => rfl, fun _ => .inr rfl⟩
  · exact ⟨⟨rfl, rfl⟩, fun _ => rfl, fun h => absurd h (by simp [hb]), fun _ => .inl ⟨rfl, rfl⟩⟩

/-- A command changes nothing but STATUS and the engine unless it completes a snapshot of its operation. -/
theorem CommandOutcome.results {op : BitVec 4} {s t : State} (h : CommandOutcome op s t) :
    t = { s with engine := t.engine, err := t.err, ovr := t.ovr, wait := t.wait, draws := t.draws } ∨
    ∃ snap : Snapshot, opOf snap.command = op ∧ t = (snap.effect s).retire ∧ ¬ (s.engine = .idle ∨ t.engine = s.engine) := by
  obtain ⟨hi, ⟨e, rfl⟩ | ⟨snap, rfl⟩⟩ | ⟨snap, hb, hop, rfl⟩ | ⟨hb, rfl⟩ := h
  · exact .inl rfl
  · exact .inl rfl
  · exact .inr ⟨snap, hop, rfl, by simp [hb]⟩
  · exact .inl rfl

/-- ENC and MAC write no register but STATUS, and of memory their own buffer, when they complete. -/
theorem CommandOutcome.storingFrame {i : Instr} {s t : State} {base size : Nat} (h : CommandOutcome (opOf i) s t) (hm : s.mem.wf)
    (hi : (i = .enc ∧ base = 0x040 ∧ size = 8) ∨ ((∃ sel, i = .mac sel) ∧ base = 0x080 ∧ size = 64)) :
    t.block = { s with mem := t.mem, engine := t.engine, err := t.err, ovr := t.ovr }.block ∧
    (∀ a, a < base ∨ base + size ≤ a → t.mem.read a = s.mem.read a) ∧
    (s.engine = .idle ∨ t.engine = s.engine → t.mem = s.mem) := by
  obtain hstatus | ⟨snap, hop, rfl, hdone⟩ := h.results
  · rw [hstatus]
    exact ⟨rfl, fun _ _ => rfl, fun _ => rfl⟩
  · obtain ⟨rfl, rfl, rfl⟩ | ⟨⟨sel, rfl⟩, rfl, rfl⟩ := hi
    · cases snap with
      | enc ctr => exact ⟨rfl, fun a ha => read_effect_enc hm ctr ha, fun hn => absurd hn hdone⟩
      | _ => cases hop
    · cases snap with
      | mac alg key msg => exact ⟨rfl, fun a ha => read_effect_mac hm alg key msg ha, fun hn => absurd hn hdone⟩
      | _ => cases hop

/-- TRUNC writes VAL and TOFF, beside STATUS, when it completes. -/
theorem CommandOutcome.truncFrame {s t : State} (h : CommandOutcome 3#4 s t) :
    t.block = { s with val := t.val, toff := t.toff, engine := t.engine, err := t.err, ovr := t.ovr }.block ∧
    (s.engine = .idle ∨ t.engine = s.engine → t.val = s.val ∧ t.toff = s.toff) := by
  obtain hstatus | ⟨snap, hop, rfl, hdone⟩ := h.results
  · rw [hstatus]
    exact ⟨rfl, fun _ => ⟨rfl, rfl⟩⟩
  · cases snap with
    | trunc alg dig => exact ⟨rfl, fun hn => absurd hn hdone⟩
    | _ => cases hop

/-- FMT and HOTP write the OTP registers, beside STATUS, when they complete. -/
theorem CommandOutcome.renderingFrame {op : BitVec 4} {s t : State} (h : CommandOutcome op s t) (hop : op = 4#4 ∨ op = 5#4) :
    t.block = { s with
      otpBin := t.otpBin, otp0 := t.otp0, otp1 := t.otp1, engine := t.engine, err := t.err, ovr := t.ovr }.block ∧
    (s.engine = .idle ∨ t.engine = s.engine → SameOtp s t) := by
  obtain hstatus | ⟨snap, rfl, rfl, hdone⟩ := h.results
  · rw [hstatus]
    exact ⟨rfl, fun _ => ⟨rfl, rfl, rfl⟩⟩
  · cases snap with
    | fmt reduce val | hotp alg key ctr => exact ⟨rfl, fun hn => absurd hn hdone⟩
    | _ => simp [Snapshot.command, opOf] at hop

/-- Settles O49, by what ENC and MAC write when they complete and what every command does to STATUS and the engine. -/
theorem storingCommandsFrame : Obligations.StoringCommandsFrame := by
  intro i s t base size hm hi h
  obtain ⟨hhost, herr, hovr, hengine⟩ := (exec_outcome h).status
  obtain ⟨hblock, houtside, hmem⟩ := (exec_outcome h).storingFrame hm hi
  exact ⟨hblock, hhost, houtside, hmem, herr, hovr, hengine⟩

/-- Settles O50, by what TRUNC, and FMT and HOTP, write when they complete and what every command does to STATUS and the engine. -/
theorem registerCommandsFrame : Obligations.RegisterCommandsFrame := by
  refine fun s t => ⟨fun sel h => ?trunc, fun i hi h => ?rendering⟩
  case trunc =>
    obtain ⟨hhost, hstatus⟩ := (exec_outcome h).status
    obtain ⟨hblock, hresults⟩ := CommandOutcome.truncFrame (exec_outcome h)
    exact ⟨hblock, hhost, hresults, hstatus⟩
  case rendering =>
    have hop : opOf i = 4#4 ∨ opOf i = 5#4 := by
      obtain ⟨reduce, rfl⟩ | ⟨sel, rfl⟩ := hi
      · exact .inl rfl
      · exact .inr rfl
    obtain ⟨hhost, hstatus⟩ := (exec_outcome h).status
    obtain ⟨hblock, hotp⟩ := (exec_outcome h).renderingFrame hop
    exact ⟨hblock, hhost, hotp, hstatus⟩

end Sys2Proof.Machine
end

section
/-! Steps of the host and of the machine (spec/30_encoding.md R87, R93, spec/70_reset_and_hazards.md R252): whose turn a step is, that
every step answers, and that a command in flight completes. -/

namespace Sys2Proof.Machine

/-! ## Every host step answers -/

theorem issueCommand_answers (v : Word) (s : State) : ∃ t, issueCommand v s = .next t := by
  unfold issueCommand
  split
  · exact ⟨_, rfl⟩
  · split
    · exact ⟨_, rfl⟩
    · exact exec_answers _ s

theorem writeReg_answers (r : Reg) (v : Word) (s : State) : ∃ t, writeReg r v s = .next t := by
  cases r with
  | cmd => exact issueCommand_answers v s
  | _ => exact ⟨_, rfl⟩

/-- A write that is served is all that the host's step does (R62). -/
theorem hostWrite_of_memWrite {a : Addr} {n : Nat} {v : Word} {s t : State} (h : memWrite a n v s = .next t) :
    hostWrite a n v s = .next t := by
  simp only [hostWrite, h]

theorem hostStep_answers (x : HostStep) (s : State) : ∃ t, hostStep x s = .next t := by
  cases x with
  | read a n =>
    change ∃ t, hostRead a n s = .next t
    unfold hostRead
    split <;> exact ⟨_, rfl⟩
  | write a n v =>
    by_cases hs : served s a n = true
    · obtain ⟨t, ht⟩ := writeReg_answers (regAt (wordOffset a)) v s
      exact ⟨t, hostWrite_of_memWrite (by rw [memWrite, if_pos hs, ht])⟩
    · exact ⟨s.respond (.busError a), by simp only [hostStep, hostWrite, memWrite, if_neg hs]⟩
  | reset => exact ⟨_, rfl⟩
  | poll =>
    change ∃ t, hostPoll s = .next t
    unfold hostPoll
    split <;> exact ⟨_, rfl⟩

/-! ## Whose turn a step is -/

theorem completionDue_eq_none {s : State} : completionDue s = none ↔ s.engine = .idle ∨ s.wait ≠ 0 := by
  cases hb : s.engine <;> cases hw : s.wait <;> simp [completionDue, hb, hw]

/-- While no completion is due, the host takes its next step. -/
theorem step_host {s : State} {x : HostStep} {rest : List HostStep} (hd : completionDue s = none) (hp : s.pending = x :: rest) :
    step s = hostStep x (s.beginHostStep rest) := by
  simp only [step, blockStep, hd, hp]

/-- While no completion is due and the host has nothing to do, time passes. -/
theorem step_tick {s : State} (hd : completionDue s = none) (hp : s.pending = []) : step s = .next s.tick := by
  simp only [step, blockStep, hd, hp]

/-- A host write to CMD issues the word (R66, R87). -/
theorem hostStep_cmd (v : Word) (s : State) : hostStep (.write 0x000#12 4 v) s = issueCommand v s := by
  obtain ⟨t, ht⟩ := issueCommand_answers v s
  have hw : memWrite 0x000#12 4 v s = issueCommand v s := memWrite_register s v (by decide) (by decide)
  rw [ht] at hw ⊢
  exact hostWrite_of_memWrite hw

/-- Settles O51: the host's turn is a write to CMD, which an idle engine takes as the decoded instruction. -/
theorem stepRunsTheWrittenCommand : Obligations.StepRunsTheWrittenCommand := by
  have written (s : State) (v : Word) (i : Instr) (rest : List HostStep) (hs : s.engine = .idle)
      (hp : s.pending = .write 0x000#12 4 v :: rest) (hd : decode v = .ok i) : step s = exec i (s.beginHostStep rest) := by
    rw [step_host (completionDue_eq_none.2 (.inl hs)) hp, hostStep_cmd,
      issueCommand_of_decode_ok (s := s.beginHostStep rest) hs hd]
  refine ⟨written, fun s v i hd => ?placed, fun s hs => ⟨fun h rest hp => ?hostTurn, fun hp => ?timePasses⟩⟩
  case placed =>
    have hword : BitVec.ofNat 32 (v.toNat % 2 ^ 32) = v := by
      rw [Nat.mod_eq_of_lt v.isLt, BitVec.ofNat_toNat, BitVec.setWidth_eq]
    rw [State.withFetchWord, hword]
    exact written (placeCommand v s) v i s.pending rfl rfl hd
  case hostTurn => exact step_host (completionDue_eq_none.2 hs) hp
  case timePasses => exact step_tick (completionDue_eq_none.2 hs) hp

/-! ## Polls -/

/-- Bit 0 of STATUS is BUSY (R23, R40). -/
theorem statusWord_busy (s : State) : s.statusWord.getLsbD 0 = s.engine.isBusy := by
  rw [State.statusWord, BitVec.getLsbD_append]
  simp

theorem hostPoll_eq (s : State) : hostPoll s = if s.engine.isBusy then .next (s.requeue .poll) else .next s := by
  rw [hostPoll, readReg, statusWord_busy]

theorem hostPoll_idle {s : State} (h : s.engine = .idle) : hostPoll s = .next s := by
  simp [hostPoll_eq, h, Engine.isBusy]

theorem hostPoll_busy {s : State} {snap : Snapshot} (h : s.engine = .busy snap) : hostPoll s = .next (s.requeue .poll) := by
  simp [hostPoll_eq, h, Engine.isBusy]

/-- Settles O57: the poll reads BUSY, and a poll put back stands before the host's other steps. -/
theorem waitEndsWithTheCommand : Obligations.WaitEndsWithTheCommand := by
  intro s rest hd hp
  rw [step_host hd hp]
  cases hs : s.engine with
  | idle => exact ⟨_, hostPoll_idle (s := s.beginHostStep rest) hs, rfl, rfl, fun _ => rfl, fun hn => absurd rfl hn⟩
  | busy snap => exact ⟨_, hostPoll_busy (s := s.beginHostStep rest) hs, rfl, rfl, fun hi => (nomatch hi), fun _ => rfl⟩

/-! ## A command in flight -/

/-- A write of any word of the window leaves a command in flight, its latency and the host's steps as they are (R206). -/
theorem writeReg_in_flight {r : Reg} {v : Word} {s t : State} {snap : Snapshot} (hb : s.engine = .busy snap)
    (h : writeReg r v s = .next t) : t.engine = .busy snap ∧ t.wait = s.wait ∧ t.pending = s.pending := by
  cases r with
  | cmd =>
    simp only [writeReg, issueCommand, hb] at h
    cases h
    exact ⟨hb, rfl, rfl⟩
  | _ => cases h; simp [hb]

/-- No step of the host but a reset touches the command in flight or its latency, or adds a reset to the host's steps (R245). -/
theorem hostStep_in_flight {x : HostStep} {s t : State} {snap : Snapshot} (hb : s.engine = .busy snap) (hx : x ≠ .reset)
    (h : hostStep x s = .next t) : t.engine = .busy snap ∧ t.wait = s.wait ∧ (.reset ∈ t.pending → .reset ∈ s.pending) := by
  cases x with
  | read a n => obtain ⟨-, rfl⟩ | ⟨-, rfl⟩ := hostRead_cases h <;> exact ⟨hb, rfl, id⟩
  | write a n v =>
    obtain ⟨-, rfl⟩ | ⟨-, hw⟩ := hostWrite_cases h
    · exact ⟨hb, rfl, id⟩
    · obtain ⟨hengine, hwait, hpending⟩ := writeReg_in_flight hb hw
      exact ⟨hengine, hwait, fun hmem => hpending ▸ hmem⟩
  | reset => exact absurd rfl hx
  | poll =>
    obtain rfl | rfl := hostPoll_cases h
    · exact ⟨hb, rfl, by simp⟩
    · exact ⟨hb, rfl, id⟩

/-- With latency left and no reset to come, a step brings the command in flight one step nearer to its completion. -/
theorem step_in_flight {s : State} {snap : Snapshot} (hb : s.engine = .busy snap) (hw : s.wait ≠ 0) (hreset : .reset ∉ s.pending) :
    ∃ t, step s = .next t ∧ t.engine = .busy snap ∧ t.wait = s.wait - 1 ∧ .reset ∉ t.pending := by
  have hd := completionDue_eq_none.2 (.inr hw)
  cases hp : s.pending with
  | nil => exact ⟨s.tick, step_tick hd hp, hb, rfl, by simp [hp]⟩
  | cons x rest =>
    rw [hp, List.mem_cons, not_or] at hreset
    obtain ⟨t, ht⟩ := hostStep_answers x (s.beginHostStep rest)
    obtain ⟨hengine, hwait, hpending⟩ := hostStep_in_flight (s := s.beginHostStep rest) hb (Ne.symm hreset.1) ht
    exact ⟨t, (step_host hd hp).trans ht, hengine, hwait, mt hpending hreset.2⟩

/-- Settles O55, by induction on the latency: each step takes one from it, and with none left the command completes. -/
theorem commandInFlightCompletes : Obligations.CommandInFlightCompletes := by
  intro s snap hb hreset
  generalize hn : s.wait = n
  induction n generalizing s with
  | zero =>
    have hstep := (step_due hb hn).trans (exec_due hb hn)
    exact ⟨(snap.effect s).retire, by simp only [steps, hstep], rfl⟩
  | succ n ih =>
    obtain ⟨u, hstep, hengine, hwait, hpending⟩ := step_in_flight hb (by omega) hreset
    obtain ⟨t, hsteps, hidle⟩ := ih u hengine hpending (by omega)
    exact ⟨t, by rw [steps, hstep]; exact hsteps, hidle⟩

end Sys2Proof.Machine
end

section
/-! The host's programs (spec/30_encoding.md R92, R93): what the writes of the `key` and `ctr` statements leave in the block, and the
host's TOTP program (spec/46_hotp.md R184). -/

namespace Sys2Proof.Machine

/-! ## Bytes and words -/

theorem zeros_append (m n : Nat) : zeros m ++ zeros n = zeros (m + n) := List.replicate_append_replicate

/-- `be_n` sees its value modulo `256^n` (R10). -/
theorem be_add_mul (n v k : Nat) : be n (v + k * 256 ^ n) = be n v := by
  induction n generalizing k with
  | zero => rfl
  | succ n ih =>
    have hrest : be n (v + k * 256 ^ (n + 1)) = be n v := by rw [pow_succ', ← mul_assoc, ih]
    rw [be, be, hrest]
    congr 1
    apply BitVec.eq_of_toNat_eq
    have hpow : 2 ^ (8 * n) = 256 ^ n := pow_mul 2 8 n
    have hdiv : (v + k * 256 ^ (n + 1)) / 256 ^ n = v / 256 ^ n + k * 256 := by
      rw [pow_succ', ← mul_assoc, Nat.add_mul_div_right _ _ (by positivity)]
    simp only [BitVec.toNat_ofNat, Nat.shiftRight_eq_div_pow, hpow, hdiv]
    omega

/-- The big-endian encoding of a sequence's value is the sequence (R10). -/
theorem be_beval (bs : List Byte) : be bs.length (beval bs) = bs := by
  induction bs with
  | nil => rfl
  | cons b bs ih =>
    have hfirst : beval (b :: bs) >>> (8 * bs.length) = b.toNat := by
      have hpow : 2 ^ (8 * bs.length) = 256 ^ bs.length := pow_mul 2 8 bs.length
      rw [beval_cons, Nat.shiftRight_eq_div_pow, hpow, add_comm, Nat.add_mul_div_right _ _ (by positivity),
        Nat.div_eq_of_lt (beval_lt bs), Nat.zero_add]
    rw [List.length_cons, be, hfirst, beval_cons, add_comm, be_add_mul, ih, BitVec.ofNat_toNat, BitVec.setWidth_eq]

/-- Four bytes are the bytes of their word (R64). -/
theorem be_wordOfBytes {bs : List Byte} (h : bs.length = 4) : be 4 (BitVec.ofNat 32 (beval bs)).toNat = bs := by
  have hlt : beval bs < 2 ^ 32 := by simpa [h] using beval_lt bs
  rw [BitVec.toNat_ofNat, Nat.mod_eq_of_lt hlt, ← h, be_beval]

/-- The bytes of a sequence of words, each with its most significant byte first (R64). -/
def wordBytes (ws : List Word) : List Byte := ws.flatMap fun w => be 4 w.toNat

@[simp] theorem wordBytes_cons (w : Word) (ws : List Word) : wordBytes (w :: ws) = be 4 w.toNat ++ wordBytes ws := rfl

/-- Pieces of four bytes, a last one padded with zeros, are the bytes with zeros behind them. -/
theorem wordBytes_pieces (count : Nat) (l : List Byte) (h : l.length ≤ 4 * count) :
    wordBytes ((chunks 4 count l).map fun piece => BitVec.ofNat 32 (beval (piece ++ zeros (4 - piece.length)))) =
      l ++ zeros (4 * count - l.length) := by
  induction count generalizing l with
  | zero =>
    have hl : l = [] := List.length_eq_zero_iff.1 (by omega)
    subst hl
    rfl
  | succ count ih =>
    have hpiece : (l.take 4 ++ zeros (4 - (l.take 4).length)).length = 4 := by
      simp
    have hrest : (l.drop 4).length ≤ 4 * count := by
      rw [List.length_drop]
      omega
    rw [chunks, List.map_cons, wordBytes_cons, be_wordOfBytes hpiece, ih _ hrest, List.length_take, List.length_drop]
    obtain hlong | hshort := Nat.le_total 4 l.length
    · have hfull : 4 - min 4 l.length = 0 := by omega
      have hzeros : 4 * count - (l.length - 4) = 4 * (count + 1) - l.length := by omega
      rw [hfull, hzeros, ← List.append_assoc]
      simp [zeros]
    · have htail : 4 - min 4 l.length + (4 * count - (l.length - 4)) = 4 * (count + 1) - l.length := by omega
      rw [List.take_of_length_le hshort, List.drop_of_length_le hshort, List.nil_append, List.append_assoc, zeros_append, htail]

/-- The words of a byte sequence hold it, and zeros up to a multiple of 4 (R93). -/
theorem wordBytes_packWords (bs : List Byte) : wordBytes (packWords bs) = bs ++ zeros (4 * ((bs.length + 3) / 4) - bs.length) :=
  wordBytes_pieces _ bs (by omega)

@[simp] theorem packWords_length (bs : List Byte) : (packWords bs).length = (bs.length + 3) / 4 := by
  simp [packWords]

/-! ## Memory -/

theorem writeBytes_append (m : Memory) (a : Nat) (bs cs : List Byte) :
    m.writeBytes a (bs ++ cs) = (m.writeBytes a bs).writeBytes (a + bs.length) cs := by
  induction bs generalizing m a with
  | nil => rfl
  | cons b bs ih =>
    rw [List.cons_append, Memory.writeBytes, ih, Memory.writeBytes, List.length_cons]
    congr 1
    omega

/-- Bytes stored read back, as many as are asked for. -/
theorem readBytes_writeBytes {m : Memory} (hm : m.wf) (a : Nat) (bs cs : List Byte) :
    (m.writeBytes a (bs ++ cs)).readBytes a bs.length = bs := by
  refine List.ext_getElem (Memory.readBytes_length _ _ _) fun i hi hb => ?_
  have hin : a ≤ a + i ∧ a + i < a + (bs ++ cs).length := by
    rw [List.length_append]
    omega
  rw [← List.getD_eq_getElem _ 0#8 hi, ← List.getD_eq_getElem _ 0#8 hb, Memory.readBytes_getD _ _ _ _ hb,
    Memory.read_writeBytes hm, if_pos hin, Nat.add_sub_cancel_left, List.getD_append _ _ _ _ hb]

/-! ## Sequences of writes -/

theorem hostSteps_cons {x : HostStep} {rest : List HostStep} {s t : State} (h : hostStep x s = .next t) :
    hostSteps (x :: rest) s = hostSteps rest t := by
  simp only [hostSteps, h]

/-- A write of the word at an offset below MSG, as a step of a host program. -/
theorem hostStep_writeWordAt_register {s t : State} {v : Word} {o : Nat} (ho : o % 4 = 0) (h : o < 0x028)
    (hw : writeReg (regAt o) v s = .next t) : hostStep (writeWordAt o v) s = .next t := by
  have haddr : (BitVec.ofNat 12 o).toNat = o := Nat.mod_eq_of_lt (by omega)
  refine hostWrite_of_memWrite ?_
  rw [memWrite_register s v (by rwa [haddr]) (by rwa [haddr]), haddr, hw]

/-- Words written to KEY store their bytes (R64). -/
theorem hostSteps_writeWordsAt_key (ws : List Word) {s : State} {o : Nat} (hcap : s.config.keyCapacity ≤ 3840) (ho : o % 4 = 0)
    (hlo : keyBase ≤ o) (hhi : o + 4 * ws.length ≤ keyBase + s.config.keyCapacity) :
    hostSteps (writeWordsAt o ws) s = .next (s.storeBytes o (wordBytes ws)) := by
  induction ws generalizing s o with
  | nil => rfl
  | cons v ws ih =>
    rw [List.length_cons] at hhi
    simp only [keyBase] at hlo hhi
    have haddr : (BitVec.ofNat 12 o).toNat = o := Nat.mod_eq_of_lt (by omega)
    have hbuf : InBuffers s.config.keyCapacity (BitVec.ofNat 12 o).toNat := by
      rw [haddr]
      exact .inr (.inr ⟨hlo, by simp only [keyBase]; omega⟩)
    have hfirst : hostStep (writeWordAt o v) s = .next (s.storeWord o v) := by
      refine hostWrite_of_memWrite ?_
      rw [memWrite_buffer v (by rwa [haddr]) hbuf, haddr]
    rw [writeWordsAt, hostSteps_cons hfirst, ih (s := s.storeWord o v) hcap (by omega) (by simp only [keyBase]; omega)
      (by simp only [keyBase, State.storeWord_config]; omega)]
    simp only [State.storeBytes, State.storeWord, Memory.writeWord, wordBytes_cons, writeBytes_append, be_length]

/-! ## The statements -/

/-- Settles O58: KEYLEN takes the length, and the packed words, which stay inside KEY as KEY_CAPACITY is a multiple of 4, the bytes. -/
theorem keyStatementLoadsTheSecret : Obligations.KeyStatementLoadsTheSecret := by
  intro s secret ⟨hmod, hlo, hhi⟩ hm hlen
  have hkeylen : (BitVec.ofNat 32 secret.length).toNat = secret.length := Nat.mod_eq_of_lt (by omega)
  have hfirst : hostStep (writeWordAt Reg.keylen.offset (BitVec.ofNat 32 secret.length)) s =
      .next (s.setKeylen (BitVec.ofNat 32 secret.length)) := hostStep_writeWordAt_register (by decide) (by decide) rfl
  have hsteps := hostSteps_writeWordsAt_key (packWords secret) (s := s.setKeylen (BitVec.ofNat 32 secret.length)) (o := keyBase) hhi
    (by decide) le_rfl (by rw [packWords_length, State.setKeylen_config]; omega)
  refine ⟨_, (hostSteps_cons hfirst).trans hsteps, hkeylen, ?secret, rfl, fun a ha => ?below⟩
  case secret =>
    rw [State.secret, State.storeBytes_keylen, State.setKeylen_keylen, hkeylen, State.storeBytes_mem, wordBytes_packWords]
    exact readBytes_writeBytes hm keyBase secret _
  case below =>
    rw [State.storeBytes_mem, State.setKeylen_mem, Memory.read_writeBytes hm, if_neg (by simp only [keyBase]; omega)]

theorem append_halves (c : DWord) : c.extractLsb' 32 32 ++ c.extractLsb' 0 32 = c := by
  apply BitVec.eq_of_toNat_eq
  simp only [append_toNat, BitVec.extractLsb'_toNat, Nat.shiftRight_eq_div_pow]
  omega

/-- The counter registers hold this counter, its high half in CTR_HI (R25). -/
def State.loadCounter (c : DWord) (s : State) : State := (s.setCtrHi (c.extractLsb' 32 32)).setCtrLo (c.extractLsb' 0 32)

theorem counter_loadCounter (c : DWord) (s : State) : (s.loadCounter c).counter = c :=
  (counter_eq_append _).trans (append_halves c)

/-- The steps of a `ctr` statement load its counter. -/
theorem hostSteps_ctr (c : DWord) (rest : List HostStep) (s : State) :
    hostSteps ((Stmt.ctr c).expand ++ rest) s = hostSteps rest (s.loadCounter c) :=
  (hostSteps_cons (hostStep_writeWordAt_register (by decide) (by decide) rfl)).trans
    (hostSteps_cons (hostStep_writeWordAt_register (by decide) (by decide) rfl))

/-- A selector that resolves is no unsupported one (R82). -/
theorem wellFormed_of_resolve {sel : AlgSelector} {alg : HashAlgorithm} (h : sel.resolve = some alg) : sel.wellFormed = true := by
  cases sel with
  | unsupported code => cases h
  | _ => rfl

/-- The host's write of HOTP's word to CMD is accepted by an idle engine (R87, R88). -/
theorem hostStep_cmd_hotp {s : State} {sel : AlgSelector} {alg : HashAlgorithm} (hs : s.engine = .idle) (hr : sel.resolve = some alg)
    (hk : s.keylen.toNat ≤ s.config.keyCapacity) :
    hostStep (writeWordAt Reg.cmd.offset (encode (.hotp sel))) s = .next (s.accept (.hotp alg s.secret s.counter)) := by
  have hdecode : decode (encode (.hotp sel)) = .ok (.hotp sel) := encodedInstructionDecodes _ (wellFormed_of_resolve hr)
  rw [← execHotp_accepts hs hr hk, ← issueCommand_of_decode_ok hs hdecode]
  exact hostStep_cmd _ s

/-- Settles O59: the two writes load the counter, and the word of HOTP, which decodes to it, is accepted with the counter loaded. -/
theorem counterStatementLoadsTheCounter : Obligations.CounterStatementLoadsTheCounter := by
  refine ⟨fun s c => ?counter, fun s sel alg time hs hr hk => ?totp⟩
  case counter =>
    have hsteps := hostSteps_ctr c [] s
    rw [List.append_nil] at hsteps
    exact ⟨s.loadCounter c, hsteps, append_halves c, rfl⟩
  case totp =>
    have hcmd := hostStep_cmd_hotp (s := s.loadCounter (totpCounter time)) hs hr hk
    rw [counter_loadCounter] at hcmd
    exact ⟨_, _, totpCounter time, (hostSteps_ctr (totpCounter time) _ s).trans (hostSteps_cons hcmd), rfl, BitVec.toNat_udiv ..⟩

end Sys2Proof.Machine
end

section
/-! The Counter Encoder (spec/41_counter_encoder.md R100, R101): the encoding is undone by `beval`, and ENC's completion leaves it
in MSG. -/

namespace Sys2Proof.Machine

/-! ## The encoding -/

/-- `beval` undoes `be_n` up to the bits that `n` bytes hold (R10). -/
theorem beval_be (n v : Nat) : beval (be n v) = v % 256 ^ n := by
  induction n with
  | zero => rw [pow_zero, Nat.mod_one]; rfl
  | succ n ih =>
    have hpow : 2 ^ (8 * n) = 256 ^ n := pow_mul 2 8 n
    rw [be, beval_cons, be_length, ih, BitVec.toNat_ofNat, Nat.shiftRight_eq_div_pow, hpow, pow_succ 256, Nat.mod_mul (x := v), Nat.mul_comm,
      Nat.add_comm]

theorem beval_encodeCounter (c : DWord) : beval (encodeCounter c) = c.toNat := by
  rw [encodeCounter, beval_be]
  exact Nat.mod_eq_of_lt c.isLt

/-- Settles O26: an encoding with a value gives its counter back, so two counters with one encoding have one value. -/
theorem counterEncodingIsInvertible : Obligations.CounterEncodingIsInvertible := by
  refine ⟨beval_encodeCounter, fun c d h => BitVec.eq_of_toNat_eq ?_⟩
  rw [← beval_encodeCounter c, h, beval_encodeCounter]

/-! ## The completion -/

/-- ENC stores byte `i` of its counter's encoding at `MSG[i]` (R100). -/
theorem read_effect_enc_msg {s : State} (hm : s.mem.wf) (ctr : DWord) {i : Nat} (hi : i < 8) :
    ((Snapshot.enc ctr).effect s).mem.read (0x040 + i) = BitVec.ofNat 8 (ctr.toNat / 2 ^ (8 * (7 - i))) := by
  have hlen : (encodeCounter ctr).length = 8 := be_length 8 _
  rw [Snapshot.effect, State.storeBytes_mem, Memory.read_writeBytes hm, hlen, msgBase, if_pos (by omega), Nat.add_sub_cancel_left]
  exact be_getD 8 _ i hi

/-- A buffer word whose bytes are the four low ones of a number is that number modulo 2^32 (R64). -/
theorem readWord_of_bytes {m : Memory} {a v : Nat} (h : ∀ j < 4, m.read (a + j) = BitVec.ofNat 8 (v / 2 ^ (24 - 8 * j))) :
    m.readWord a = BitVec.ofNat 32 v := by
  have hbyte0 := h 0 (by decide)
  rw [Nat.add_zero] at hbyte0
  rw [readWord_eq_append, hbyte0, h 1 (by decide), h 2 (by decide), h 3 (by decide)]
  apply BitVec.eq_of_toNat_eq
  simp only [append_toNat, BitVec.toNat_ofNat]
  omega

/-- After ENC, the two words of MSG are the halves of its counter, the high one first (R100). -/
theorem readWord_effect_enc {s : State} (hm : s.mem.wf) (ctr : DWord) {k : Nat} (hk : k < 2) :
    ((Snapshot.enc ctr).effect s).mem.readWord (0x040 + 4 * k) = ctr.extractLsb' (32 * (1 - k)) 32 := by
  rw [BitVec.extractLsb', Nat.shiftRight_eq_div_pow]
  refine readWord_of_bytes fun j hj => ?_
  have hexp : 32 * (1 - k) + (24 - 8 * j) = 8 * (7 - (4 * k + j)) := by omega
  rw [Nat.add_assoc, read_effect_enc_msg hm ctr (by omega), Nat.div_div_eq_div_mul, ← pow_add, hexp]

/-- Settles O28: the memory after the completion is the one with the encoded counter stored at MSG. -/
theorem encWritesTheCounter : Obligations.EncWritesTheCounter := by
  intro s ctr hs hw hm
  refine ⟨((Snapshot.enc ctr).effect s).mem, exec_due hs hw, Memory.wf_writeBytes hm _ _, fun i hi => read_effect_enc_msg hm ctr hi,
    fun a ha => read_effect_enc hm ctr ha, ?msg0, ?msg1⟩
  case msg0 =>
    rw [memRead_buffer (by decide) (.inl (by decide))]
    exact congrArg Except.ok (readWord_effect_enc hm ctr (k := 0) (by decide))
  case msg1 =>
    rw [memRead_buffer (by decide) (.inl (by decide))]
    exact congrArg Except.ok (readWord_effect_enc hm ctr (k := 1) (by decide))

end Sys2Proof.Machine
end

section
/-! The Keyed Digest Generator (spec/42_keyed_digest.md R110 to R115): the normalized key is one block, HMAC is the construction of
R113 over it, and MAC's completion leaves the digest in DIGEST with zeros behind it. -/

namespace Sys2Proof.Machine

/-! ## Key normalization -/

theorem digestLen_le_blockSize (alg : HashAlgorithm) : digestLen alg ≤ blockSize alg := by
  cases alg <;> decide

theorem normalizeKey_of_lt {alg : HashAlgorithm} {K : List Byte} (h : blockSize alg < K.length) :
    normalizeKey alg K = sha alg K ++ zeros (blockSize alg - digestLen alg) := by
  simp only [normalizeKey, if_pos h, sha_length]

theorem normalizeKey_of_le {alg : HashAlgorithm} {K : List Byte} (h : K.length ≤ blockSize alg) :
    normalizeKey alg K = K ++ zeros (blockSize alg - K.length) := by
  simp only [normalizeKey, if_neg (Nat.not_lt.2 h)]

theorem normalizeKey_of_length_eq {alg : HashAlgorithm} {K : List Byte} (h : K.length = blockSize alg) : normalizeKey alg K = K := by
  rw [normalizeKey_of_le h.le, h, Nat.sub_self]
  exact List.append_nil K

/-- The normalized key is one block: neither a digest nor a key that is not hashed is longer (R114). -/
@[simp] theorem normalizeKey_length (alg : HashAlgorithm) (K : List Byte) : (normalizeKey alg K).length = blockSize alg := by
  obtain hlong | hshort := Nat.lt_or_ge (blockSize alg) K.length
  · rw [normalizeKey_of_lt hlong, List.length_append, sha_length, zeros_length, Nat.add_sub_cancel' (digestLen_le_blockSize alg)]
  · rw [normalizeKey_of_le hshort, List.length_append, zeros_length, Nat.add_sub_cancel' hshort]

/-- Settles O32, by whether the key is longer than the block; the empty key is a short one. -/
theorem keysAreNormalized : Obligations.KeysAreNormalized :=
  ⟨rfl, rfl, rfl, fun alg K => ⟨normalizeKey_length alg K, normalizeKey_of_lt, normalizeKey_of_le, normalizeKey_of_length_eq,
    normalizeKey_of_le (Nat.zero_le _)⟩⟩

/-! ## HMAC -/

/-- XOR with one byte is bytewise XOR with as many copies of it as the sequence has bytes (R113). -/
theorem zipWith_xor_replicate (b : Byte) {S : List Byte} {n : Nat} (h : S.length = n) :
    List.zipWith (· ^^^ ·) S (List.replicate n b) = xorAll b S := by
  rw [← h, ← List.map_const', List.zipWith_map_right, List.zipWith_self, xorAll]

/-- Settles O33: both pads are one block long, as the normalized key is, so each is XORed with the key in full. -/
theorem hmacIsTheStandardConstruction : Obligations.HmacIsTheStandardConstruction := by
  intro alg K m K0 ipadK opadK inner
  have hK0 : K0.length = blockSize alg := normalizeKey_length alg K
  have hipad : ipadK = xorAll 0x36#8 K0 := zipWith_xor_replicate _ hK0
  have hopad : opadK = xorAll 0x5C#8 K0 := zipWith_xor_replicate _ hK0
  refine ⟨hK0, sha_length alg _, ?standard, hmac_length alg K m⟩
  case standard =>
    change hmac alg K m = sha alg (opadK ++ sha alg (ipadK ++ m))
    rw [hopad, hipad, hmac]

/-! ## The completion -/

/-- MAC stores byte `i` of what it leaves in DIGEST at `DIGEST[i]` (R110). -/
theorem read_effect_mac_digest {s : State} (hm : s.mem.wf) (alg : HashAlgorithm) (key msg : List Byte) {i : Nat} (hi : i < 64) :
    ((Snapshot.mac alg key msg).effect s).mem.read (0x080 + i) = (macDigest alg key msg).getD i 0#8 := by
  rw [Snapshot.effect, State.storeBytes_mem, Memory.read_writeBytes hm, macDigest_length, digestBase, digestLength, if_pos (by omega),
    Nat.add_sub_cancel_left]

/-- The first bytes of DIGEST are the digest (R110). -/
theorem macDigest_getD_digest (alg : HashAlgorithm) (key msg : List Byte) {i : Nat} (hi : i < digestLen alg) :
    (macDigest alg key msg).getD i 0#8 = (hmac alg key msg).getD i 0#8 :=
  List.getD_append _ _ _ _ (by rwa [hmac_length])

/-- The bytes of DIGEST behind the digest are zeros (R115). -/
theorem macDigest_getD_rest (alg : HashAlgorithm) (key msg : List Byte) {i : Nat} (hi : digestLen alg ≤ i) :
    (macDigest alg key msg).getD i 0#8 = 0#8 := by
  rw [macDigest, List.getD_append_right _ _ _ _ (by rwa [hmac_length]), zeros, List.getD_eq_getElem?_getD,
    List.getElem?_getD_replicate_default_eq]

/-- Settles O30: the memory after the completion is the one with the digest and its zeros stored at DIGEST. -/
theorem macWritesTheDigest : Obligations.MacWritesTheDigest := by
  intro s sel alg key msg hr hs hw hm
  have hdigest {i : Nat} (hi : i < 64) := read_effect_mac_digest hm alg key msg hi
  refine ⟨((Snapshot.mac alg key msg).effect s).mem, execMac_due hr hs hw, Memory.wf_writeBytes hm _ _, fun i hi => ?digest,
    fun i hlo hhi => ?rest, fun a ha => read_effect_mac hm alg key msg ha⟩
  case digest =>
    have hlen : digestLen alg ≤ 64 := digestLen_le_digestLength alg
    rw [hdigest (by omega), macDigest_getD_digest alg key msg hi]
  case rest => rw [hdigest hhi, macDigest_getD_rest alg key msg hlo]

end Sys2Proof.Machine
end

section
/-! The lengths of a hash (spec/43_sha_functions.md R130, R132, R146): the digest, the padded message and its blocks. -/

namespace Sys2Proof.Machine

/-- Settles O31, by the lengths of the hash and of the HMAC. -/
theorem digestsHaveTheirLengths : Obligations.DigestsHaveTheirLengths :=
  ⟨rfl, rfl, rfl, sha_length, hmac_length⟩

/-! ## Padding -/

/-- The zeros of the padding leave room for the length field in the last block (R132). -/
theorem padZeros_fill (alg : HashAlgorithm) (n : Nat) :
    (n + 1 + padZeros alg n) % blockSize alg = blockSize alg - lengthField alg := by
  cases alg <;> simp only [padZeros, blockSize, lengthField] <;> omega

theorem padZeros_lt (alg : HashAlgorithm) (n : Nat) : padZeros alg n < blockSize alg :=
  Nat.mod_lt _ (by cases alg <;> decide)

/-- Fewer zeros do not bring the length there: two counts that do are congruent modulo `B`, and both are below `B` (R132). -/
theorem padZeros_least {alg : HashAlgorithm} {n j : Nat} (hj : j < padZeros alg n) :
    (n + 1 + j) % blockSize alg ≠ blockSize alg - lengthField alg := by
  intro hfill
  have hk := padZeros_lt alg n
  have hmod : j ≡ padZeros alg n [MOD blockSize alg] :=
    Nat.ModEq.add_left_cancel' (n + 1) (hfill.trans (padZeros_fill alg n).symm)
  exact hj.ne (hmod.eq_of_lt_of_lt (hj.trans hk) hk)

theorem pad_length (alg : HashAlgorithm) (M : List Byte) :
    (pad alg M).length = M.length + 1 + padZeros alg M.length + lengthField alg := by
  simp only [pad, List.length_append, List.length_singleton, zeros_length, be_length]

/-- The length field fills the last block (R132). -/
theorem blockSize_dvd_pad_length (alg : HashAlgorithm) (M : List Byte) : blockSize alg ∣ (pad alg M).length := by
  have hfit : lengthField alg ≤ blockSize alg := by cases alg <;> decide
  rw [pad_length, Nat.dvd_iff_mod_eq_zero, Nat.add_mod, padZeros_fill, Nat.add_mod_mod, Nat.sub_add_cancel hfit, Nat.mod_self]

/-- Settles O34: the model's count of zeros is the least that leaves room for the length field. -/
theorem paddingFillsTheBlocks : Obligations.PaddingFillsTheBlocks :=
  ⟨rfl, rfl, rfl, fun alg M =>
    ⟨⟨padZeros alg M.length, rfl, padZeros_fill alg M.length, fun _ => padZeros_least⟩,
      Nat.mod_eq_zero_of_dvd (blockSize_dvd_pad_length alg M)⟩⟩

/-! ## Blocks -/

/-- The padded message has as many blocks as the message, the byte 0x80 and the length field need, rounded up: the zeros are
fewer than a block, and they make the length a multiple of `B` (R132). -/
theorem blocks_pad_length (alg : HashAlgorithm) (M : List Byte) :
    (blocks alg (pad alg M)).length = (M.length + 1 + lengthField alg + blockSize alg - 1) / blockSize alg := by
  obtain ⟨q, hq⟩ := blockSize_dvd_pad_length alg M
  have hk := padZeros_lt alg M.length
  have hlen := pad_length alg M
  rw [blocks, chunks_length, hq, Nat.mul_div_cancel_left q (by omega)]
  refine (Nat.div_eq_of_lt_le ?lower ?upper).symm
  case lower => rw [Nat.mul_comm]; omega
  case upper => rw [Nat.succ_mul, Nat.mul_comm]; omega

/-- Settles O36: each count is the one of R132's last sentence, at the block size and length field of its algorithm. -/
theorem compressionCounts : Obligations.CompressionCounts := by
  refine ⟨blocks_pad_length, fun K _ => ?_, fun K _ => ?_, fun K _ => ?_, fun alg M hM => ?hmac⟩
  case hmac =>
    rw [blocks_pad_length]
    cases alg <;> simp only [blockSize, lengthField, digestLen] at hM ⊢ <;> omega
  all_goals
    rw [blocks_pad_length, blockSize, lengthField]
    omega

end Sys2Proof.Machine
end

section
/-! The message schedule (spec/43_sha_functions.md R133, R136, R140, R144). The model builds it newest word first; read in the
order of its words, a longer schedule is a shorter one and the words of the recurrence after it. -/

namespace Sys2Proof.Machine

theorem extendSchedule_succ {w : Nat} (next : List (BitVec w) → BitVec w) (n : Nat) (l : List (BitVec w)) :
    extendSchedule next (n + 1) l = next (extendSchedule next n l) :: extendSchedule next n l := by
  induction n generalizing l with
  | zero => rfl
  | succ n ih => exact ih (next l :: l)

section
variable {w : Nat} {next : List (BitVec w) → BitVec w} {block : List Byte}

theorem schedule_zero : schedule next 0 block = blockWords w block := List.reverse_reverse _

/-- One more word is the next one after the words so far, the newest of which stands first for `next`. -/
theorem schedule_succ (n : Nat) :
    schedule next (n + 1) block = schedule next n block ++ [next (schedule next n block).reverse] := by
  simp only [schedule, extendSchedule_succ, List.reverse_cons, List.reverse_reverse]

@[simp] theorem schedule_length (n : Nat) : (schedule next n block).length = 16 + n := by
  induction n with
  | zero => simp [schedule_zero, blockWords]
  | succ n ih => rw [schedule_succ, List.length_append, ih, List.length_singleton, Nat.add_assoc]

/-- A longer schedule begins with the shorter one. -/
theorem schedule_prefix {m n : Nat} (h : m ≤ n) : schedule next m block <+: schedule next n block := by
  induction n, h using Nat.le_induction with
  | base => exact List.prefix_rfl
  | succ n _ ih =>
    rw [schedule_succ]
    exact ih.trans (List.prefix_append _ _)

theorem schedule_getD_of_le {m n t : Nat} (h : m ≤ n) (ht : t < 16 + m) :
    (schedule next n block).getD t 0#w = (schedule next m block).getD t 0#w := by
  obtain ⟨rest, hrest⟩ := schedule_prefix (next := next) (block := block) h
  rw [← hrest, List.getD_append _ _ _ _ (by rwa [schedule_length])]

/-- The first sixteen words are the block's, most significant byte first (R133). -/
theorem schedule_getD_block (n : Nat) {t : Nat} (ht : t < 16) :
    (schedule next n block).getD t 0#w = BitVec.ofNat w (beval ((block.drop (w / 8 * t)).take (w / 8))) := by
  rw [schedule_getD_of_le n.zero_le ht, schedule_zero, ← chunks_getD _ 16 _ t ht]
  exact List.getD_map _ [] _

/-- A later word is the next one after all the words before it. -/
theorem schedule_getD_next {n t : Nat} (hlo : 16 ≤ t) (hhi : t < 16 + n) :
    (schedule next n block).getD t 0#w = next (schedule next (t - 16) block).reverse := by
  have hlen : (schedule next (t - 16) block).length = t := by rw [schedule_length]; omega
  rw [schedule_getD_of_le (m := t - 16 + 1) (by omega) (by omega), schedule_succ,
    List.getD_append_right _ _ _ _ hlen.le, hlen, Nat.sub_self, List.getD_cons_zero]

/-- Where `next` makes word `t`, the element at index `k` is `W[t-(k+1)]`. -/
theorem schedule_reverse_getD {n t k : Nat} (hlo : 16 ≤ t) (hhi : t < 16 + n) (hk : k < 16) :
    (schedule next (t - 16) block).reverse.getD k 0#w = (schedule next n block).getD (t - (k + 1)) 0#w := by
  rw [List.getD_reverse _ (by rw [schedule_length]; omega), schedule_length,
    schedule_getD_of_le (n := n) (m := t - 16) (by omega) (by omega)]
  congr 1
  omega

end

/-- The schedule of SHA-1 follows the recurrence of R136. -/
theorem schedule_sha1Next_getD (n : Nat) {t : Nat} {block : List Byte} (hlo : 16 ≤ t) (hhi : t < 16 + n) :
    let W := schedule sha1Next n block
    W.getD t 0#32 = (W.getD (t - 3) 0#32 ^^^ W.getD (t - 8) 0#32 ^^^ W.getD (t - 14) 0#32 ^^^ W.getD (t - 16) 0#32).rotateLeft 1 := by
  intro W
  have hback {k : Nat} (hk : k < 16) := schedule_reverse_getD (next := sha1Next) (block := block) hlo hhi hk
  rw [schedule_getD_next hlo hhi, sha1Next, hback (k := 2) (by decide), hback (k := 7) (by decide), hback (k := 13) (by decide),
    hback (k := 15) (by decide)]

/-- The schedules of SHA-256 and SHA-512 follow one recurrence, each with its own sigma functions (R140, R144). -/
theorem schedule_sha2Next_getD {w : Nat} (V : Sha2Variant w) (n : Nat) {t : Nat} {block : List Byte} (hlo : 16 ≤ t) (hhi : t < 16 + n) :
    let W := schedule (sha2Next V) n block
    W.getD t 0#w = V.s1 (W.getD (t - 2) 0#w) + W.getD (t - 7) 0#w + V.s0 (W.getD (t - 15) 0#w) + W.getD (t - 16) 0#w := by
  intro W
  have hback {k : Nat} (hk : k < 16) := schedule_reverse_getD (next := sha2Next V) (block := block) hlo hhi hk
  rw [schedule_getD_next hlo hhi, sha2Next, hback (k := 1) (by decide), hback (k := 6) (by decide), hback (k := 14) (by decide),
    hback (k := 15) (by decide)]

/-- Settles O35: the block's words and the recurrence of each algorithm, at its own number of words. -/
theorem schedulesFollowTheirRecurrences : Obligations.SchedulesFollowTheirRecurrences :=
  ⟨fun _ => ⟨schedule_length 64, fun _ => schedule_getD_block 64, fun _ => schedule_sha1Next_getD 64⟩,
    fun _ => ⟨schedule_length 48, fun _ => schedule_getD_block 48, fun _ => schedule_sha2Next_getD sha256Variant 48⟩,
    fun _ => ⟨schedule_length 64, fun _ => schedule_getD_block 64, fun _ => schedule_sha2Next_getD sha512Variant 64⟩⟩

end Sys2Proof.Machine
end

section
/-! The Dynamic Truncator (spec/44_truncator.md R160 to R163): the window lies inside the digest, masking its first byte clears its
value's top bit, and TRUNC's completion leaves that value and the offset in VAL and TOFF. -/

namespace Sys2Proof.Machine

/-! ## The window -/

/-- The offset is the low four bits of the digest's last byte (R160). -/
theorem truncOffset_toNat (D : List Byte) : (truncOffset D).toNat = (D.getD (D.length - 1) 0#8).toNat % 16 :=
  BitVec.toNat_setWidth _ _

theorem truncOffset_le (D : List Byte) : (truncOffset D).toNat ≤ 15 :=
  Nat.le_of_lt_succ (truncOffset D).isLt

/-- Any 19 bytes hold the whole window (R161). -/
theorem length_truncWindow {D : List Byte} (h : 19 ≤ D.length) : ((D.drop (truncOffset D).toNat).take 4).length = 4 := by
  have hoff := truncOffset_le D
  rw [List.length_take, List.length_drop]
  omega

theorem drop_take_truncWindow (D : List Byte) :
    ((D.take 19).drop (truncOffset D).toNat).take 4 = (D.drop (truncOffset D).toNat).take 4 := by
  have hoff := truncOffset_le D
  rw [List.drop_take, List.take_take, Nat.min_eq_left (by omega)]

theorem take_succ_drop {D : List Byte} {o : Nat} (n : Nat) (h : o < D.length) :
    (D.drop o).take (n + 1) = D.getD o 0#8 :: (D.drop (o + 1)).take n := by
  rw [List.drop_eq_getElem_cons h, List.take_succ_cons, List.getD_eq_getElem _ _ h]

/-- Four bytes that a sequence holds, one by one. -/
theorem take_four_drop {D : List Byte} {o : Nat} (h : o + 4 ≤ D.length) :
    (D.drop o).take 4 = [D.getD o 0#8, D.getD (o + 1) 0#8, D.getD (o + 2) 0#8, D.getD (o + 3) 0#8] := by
  rw [take_succ_drop 3 (by omega), take_succ_drop 2 (by omega), take_succ_drop 1 (by omega), take_succ_drop 0 (by omega),
    List.take_zero]

theorem beval_four (a b c d : Byte) :
    beval [a, b, c, d] = a.toNat * 16777216 + b.toNat * 65536 + c.toNat * 256 + d.toNat := by
  simp only [beval, List.foldl]
  omega

/-! ## The mask -/

/-- Clearing a byte's most significant bit takes its value modulo 128. -/
theorem toNat_and_0x7F (b : Byte) : (b &&& 0x7F#8).toNat = b.toNat % 128 :=
  (BitVec.toNat_and _ _).trans (Nat.and_two_pow_sub_one_eq_mod _ 7)

/-- Masking the first byte takes the value modulo half of what the bytes can hold (R163). -/
theorem beval_maskFirst (bs : List Byte) : beval (maskFirst bs) = beval bs % 2 ^ (8 * bs.length - 1) := by
  cases bs with
  | nil => rfl
  | cons b rest =>
    have hhalf : 2 ^ (8 * (b :: rest).length - 1) = 256 ^ rest.length * 128 := by
      rw [List.length_cons, show 8 * (rest.length + 1) - 1 = 8 * rest.length + 7 by omega, pow_add, pow_mul]
      rfl
    have hlow : (b.toNat * 256 ^ rest.length + beval rest) % 256 ^ rest.length = beval rest := by
      rw [Nat.mul_add_mod_self_right, Nat.mod_eq_of_lt (beval_lt rest)]
    have hhigh : (b.toNat * 256 ^ rest.length + beval rest) / 256 ^ rest.length = b.toNat := by
      rw [mul_comm, Nat.mul_add_div (by positivity), Nat.div_eq_of_lt (beval_lt rest), Nat.add_zero]
    rw [maskFirst, beval_cons, beval_cons, toNat_and_0x7F, hhalf, Nat.mod_mul, hlow, hhigh, add_comm, mul_comm]

/-- The truncated value is the window's modulo 2^31 (R163). -/
theorem truncValue_toNat {D : List Byte} (h : 19 ≤ D.length) :
    (truncValue D).toNat = beval ((D.drop (truncOffset D).toNat).take 4) % 2 ^ 31 := by
  rw [truncValue, beval_maskFirst, length_truncWindow h, BitVec.toNat_ofNat]
  exact Nat.mod_eq_of_lt ((Nat.mod_lt _ (by decide)).trans (by decide))

/-- The truncated value, byte by byte (R160). -/
theorem truncValue_eq {D : List Byte} (h : 19 ≤ D.length) :
    let b := fun i => (D.getD ((truncOffset D).toNat + i) 0#8).toNat
    truncValue D = BitVec.ofNat 32 (b 0 % 128 * 16777216 + b 1 * 65536 + b 2 * 256 + b 3) := by
  intro b
  have hoff := truncOffset_le D
  rw [truncValue, take_four_drop (by omega), maskFirst, beval_four, toNat_and_0x7F]
  rfl

/-! ## The obligations -/

/-- Settles O38: the completion's writes are the truncated value, byte by byte, and the offset of the captured digest. -/
theorem truncWritesTheWindow : Obligations.TruncWritesTheWindow := by
  intro s sel alg D hr hbusy hw hlen offset b
  have hlong : 19 ≤ D.length := by cases alg <;> simp [hlen, digestLen]
  have hoff : (truncOffset D).toNat = offset := by rw [truncOffset_toNat, hlen]
  have htoff : truncOffset D = BitVec.ofNat 4 offset := by rw [← hoff, BitVec.ofNat_toNat, BitVec.setWidth_eq]
  have hval : truncValue D = BitVec.ofNat 32 (b 0 % 128 * 16777216 + b 1 * 65536 + b 2 * 256 + b 3) := by
    rw [truncValue_eq hlong, hoff]
  have hdue : exec (.trunc sel) s = .next { s with val := truncValue D, toff := truncOffset D, engine := .idle } :=
    execTrunc_due hr hbusy hw
  rw [hdue, hval, htoff]

/-- Settles O40: both sides are the window's value modulo 2^31. -/
theorem truncatedValueIsMasked : Obligations.TruncatedValueIsMasked := by
  refine fun D h => ⟨BitVec.eq_of_toNat_eq ?_, truncValue_toNat h ▸ Nat.mod_lt _ (by decide)⟩
  rw [truncValue_toNat h, BitVec.toNat_and, BitVec.toNat_ofNat]
  exact ((Nat.and_two_pow_sub_one_eq_mod _ 31).trans (Nat.mod_mod_of_dvd _ (by decide))).symm

/-- Settles O39: the offset has four bits, and the shortest digest is 20 bytes long. -/
theorem truncationStaysInBounds : Obligations.TruncationStaysInBounds := by
  intro D hlen
  have hoff := truncOffset_le D
  have hlong : 19 < D.length := by omega
  exact ⟨hoff, by omega, hlong, drop_take_truncWindow D, length_truncWindow hlong.le⟩

end Sys2Proof.Machine
end

section
/-! The Decimal Formatter (spec/45_formatter.md R170 to R172): the characters are the decimal digits of the rendered value, they
pack big-endian into the OTP registers and unpack again, and read as a number they give the value back. -/

namespace Sys2Proof.Machine

/-! ## The characters -/

/-- A character is 0x30 and its digit: no carry leaves the byte (R171). -/
theorem otpChar_toNat (n i : Nat) : (otpChar n i).toNat = 0x30 + n / 10 ^ (5 - i) % 10 := by
  rw [otpChar, ascii, BitVec.toNat_ofNat]
  omega

theorem otpChar_isDigit (n i : Nat) : 0x30 ≤ (otpChar n i).toNat ∧ (otpChar n i).toNat ≤ 0x39 := by
  rw [otpChar_toNat]
  omega

/-- OTP0 packs its four characters big-endian (R29). -/
theorem otpChars03_eq (n : Nat) :
    let c := fun i => 0x30 + n / 10 ^ (5 - i) % 10
    otpChars03 n = BitVec.ofNat 32 (c 0 * 16777216 + c 1 * 65536 + c 2 * 256 + c 3) := by
  intro c
  apply BitVec.eq_of_toNat_eq
  simp only [otpChars03, append_toNat (n := 8), otpChar_toNat, BitVec.toNat_ofNat, c]
  omega

/-- The stored half of OTP1 packs the last two characters big-endian (R30). -/
theorem otpChars45_eq (n : Nat) :
    let c := fun i => 0x30 + n / 10 ^ (5 - i) % 10
    otpChars45 n = BitVec.ofNat 16 (c 4 * 256 + c 5) := by
  intro c
  apply BitVec.eq_of_toNat_eq
  simp only [otpChars45, append_toNat (n := 8), otpChar_toNat, BitVec.toNat_ofNat, c]
  omega

/-! ## The string -/

/-- The OTP registers of a rendered value unpack to its six characters. -/
theorem render_otpString (n : Nat) (s : State) : (render n s).otpString = (List.range 6).map (otpChar n) := by
  simp [State.otpString, otpChars03, otpChars45, List.range_succ, BitVec.extractLsb'_append_eq_of_le (w := 8),
    BitVec.extractLsb'_append_eq_right (w' := 8)]

/-- Of a value below the modulus, the first `k` characters spell what is left when the other digits are cut off: each character
appends its digit to the number spelled before it. -/
theorem decimalValue_prefix {n : Nat} (h : n < otpModulus) {k : Nat} (hk : k ≤ 6) :
    decimalValue ((List.range k).map (otpChar n)) = n / 10 ^ (6 - k) := by
  induction k with
  | zero => exact (Nat.div_eq_of_lt h).symm
  | succ k ih =>
    have hcut : n / 10 ^ (6 - k) = n / 10 ^ (5 - k) / 10 := by
      rw [Nat.div_div_eq_div_mul, ← pow_succ, show 5 - k + 1 = 6 - k by omega]
    have happend : decimalValue ((List.range (k + 1)).map (otpChar n)) =
        10 * decimalValue ((List.range k).map (otpChar n)) + ((otpChar n k).toNat - 0x30) := by
      simp only [decimalValue, List.range_succ, List.map_append, List.foldl_append, List.map_singleton, List.foldl]
    rw [happend, ih (by omega), otpChar_toNat, hcut, Nat.add_sub_cancel_left, Nat.div_add_mod, Nat.add_sub_add_right 5 1 k]

/-- The OTP of a value below the modulus spells it (R172). -/
theorem decimalValue_render {n : Nat} (h : n < otpModulus) (s : State) : decimalValue (render n s).otpString = n := by
  rw [render_otpString, decimalValue_prefix h le_rfl, Nat.sub_self, Nat.pow_zero, Nat.div_one]

theorem otpString_isDigit (n : Nat) (s : State) : ∀ c ∈ (render n s).otpString, 0x30 ≤ c.toNat ∧ c.toNat ≤ 0x39 := by
  rw [render_otpString]
  exact List.forall_mem_map.2 fun i _ => otpChar_isDigit n i

/-- OTP_BIN has room for a value below the modulus (R28). -/
theorem render_otpBin_toNat {n : Nat} (h : n < otpModulus) (s : State) : (render n s).otpBin.toNat = n :=
  Nat.mod_eq_of_lt (h.trans (by decide))

/-- The OTP that is shown depends on the rendered value alone. -/
theorem sameOtp_render {m n : Nat} (h : m = n) (s t : State) : SameOtp (render m s) (render n t) := by
  subst h
  exact ⟨rfl, rfl, rfl⟩

/-! ## FMT, issued and completed -/

/-- A command that is accepted and completed makes its writes on the accepted state. -/
theorem runCommand_of_accepts {i : Instr} {s : State} {snap : Snapshot} (h : exec i s = .next (s.accept snap)) :
    runCommand i s = .next (snap.effect { s.accept snap with wait := 0 }).retire := by
  simp only [runCommand, h]
  exact exec_due rfl rfl

theorem execFmt_accepts {s : State} {reduce : Bool} (hs : s.engine = .idle) (h : reduce = true ∨ s.val.toNat < otpModulus) :
    exec (.fmt reduce) s = .next (s.accept (.fmt reduce s.val)) :=
  lifecycle_accepts (complete := completeFmt reduce) hs (captureFmt_ok h)

/-- FMT, issued and completed, renders its value. -/
theorem runCommand_fmt {s : State} {reduce : Bool} (hs : s.engine = .idle) (h : reduce = true ∨ s.val.toNat < otpModulus) :
    runCommand (.fmt reduce) s =
      .next (render (fmtValue reduce s.val) { s.accept (.fmt reduce s.val) with wait := 0, engine := .idle }) :=
  runCommand_of_accepts (execFmt_accepts hs h)

/-- Reducing leaves a value below the modulus as it is (R172). -/
theorem fmtValue_true_of_lt {val : Word} (h : val.toNat < otpModulus) : fmtValue true val = fmtValue false val :=
  Nat.mod_eq_of_lt h

/-! ## The obligations -/

/-- Settles O43: FMT's writes render the value, and its characters pack into the registers as the statement packs them. -/
theorem fmtRendersTheValue : Obligations.FmtRendersTheValue := by
  intro s reduce val hbusy hw _ n c
  have hdue : exec (.fmt reduce) s =
      .next { s with otpBin := BitVec.ofNat 20 n, otp0 := otpChars03 n, otp1 := otpChars45 n, engine := .idle } :=
    exec_due hbusy hw
  rw [hdue, otpChars03_eq, otpChars45_eq]

/-- Settles O44: FMT.R renders the remainder, which is below the modulus; FMT accepts such a value and renders it as FMT.R does. -/
theorem otpSpellsItsValue : Obligations.OtpSpellsItsValue := by
  intro s hs
  have hlt : fmtValue true s.val < otpModulus := fmtValue_lt nofun
  have hrem : (BitVec.ofNat 32 (s.val.toNat % 1000000)).toNat = fmtValue true s.val := Nat.mod_eq_of_lt (hlt.trans (by decide))
  refine ⟨⟨_, runCommand_fmt hs (.inl rfl), render_otpBin_toNat hlt _, ?bound, ?spells, otpString_isDigit _ _, _,
    runCommand_fmt hs (.inr (hrem.trans_lt hlt)), sameOtp_render hrem _ _⟩, fun hval => ?small⟩
  case bound => exact Nat.le_of_lt_succ ((render_otpBin_toNat hlt _).trans_lt hlt)
  case spells => exact (decimalValue_render hlt _).trans (render_otpBin_toNat hlt _).symm
  case small =>
    have hsmall : s.val.toNat < otpModulus := Nat.lt_succ_of_le hval
    exact ⟨_, _, runCommand_fmt hs (.inl rfl), runCommand_fmt hs (.inr hsmall),
      sameOtp_render (fmtValue_true_of_lt hsmall).symm _ _, render_otpBin_toNat hsmall _⟩

end Sys2Proof.Machine
end

section
/-! The whole pipeline (spec/46_hotp.md R180 to R182): HOTP's completion renders the value of the masked window in the HMAC of the
encoded counter, it depends on the operands alone, and ENC, MAC, TRUNC and FMT.R in turn render the same. -/

namespace Sys2Proof.Machine

/-! ## The value -/

/-- Every digest is long enough for TRUNC's window (R161). -/
theorem length_hmac_ge (alg : HashAlgorithm) (key msg : List Byte) : 19 ≤ (hmac alg key msg).length := by
  rw [hmac_length]
  cases alg <;> decide

/-- The truncated value as a number, byte by byte: with the top bit cleared the four bytes stay below 2^31 (R160, R163). -/
theorem truncValue_toNat_bytes {D : List Byte} (h : 19 ≤ D.length) :
    let b := fun i => (D.getD ((truncOffset D).toNat + i) 0#8).toNat
    (truncValue D).toNat = b 0 % 128 * 16777216 + b 1 * 65536 + b 2 * 256 + b 3 := by
  intro b
  simp only [truncValue_eq h, BitVec.toNat_ofNat, b]
  omega

/-! ## The operands -/

/-- The secret is the bytes of KEY below KEYLEN and no others (R31, R249). -/
theorem secret_congr {s t : State} (hlen : t.keylen = s.keylen)
    (h : ∀ a, 0x100 ≤ a → a < 0x100 + s.keylen.toNat → t.mem.read a = s.mem.read a) : t.secret = s.secret := by
  rw [State.secret, State.secret, hlen]
  exact Memory.readBytes_congr h

theorem counter_congr {s t : State} (hhi : t.ctrHi = s.ctrHi) (hlo : t.ctrLo = s.ctrLo) : t.counter = s.counter := by
  rw [State.counter, State.counter, hhi, hlo]

/-! ## The commands, issued and completed -/

/-- HOTP, issued and completed, renders the value of its operands (R180). -/
theorem runCommand_hotp {s : State} {sel : AlgSelector} {alg : HashAlgorithm} (hs : s.engine = .idle) (hr : sel.resolve = some alg)
    (hk : s.keylen.toNat ≤ s.config.keyCapacity) :
    runCommand (.hotp sel) s = .next (render (hotpValue alg s.secret s.counter)
      { s.accept (.hotp alg s.secret s.counter) with wait := 0, engine := .idle }) :=
  runCommand_of_accepts (execHotp_accepts hs hr hk)

/-- ENC, issued and completed, leaves the encoded counter in MSG, and MAC's other operands as they were (R100). -/
theorem runCommand_enc {s : State} (hs : s.engine = .idle) (hm : s.mem.wf) :
    ∃ t, runCommand .enc s = .next t ∧ t.engine = .idle ∧ t.mem.wf ∧ t.keylen = s.keylen ∧ t.config = s.config ∧
      t.secret = s.secret ∧ t.message = encodeCounter s.counter := by
  have haccept : exec .enc s = .next (s.accept (.enc s.counter)) :=
    lifecycle_accepts (capture := captureEnc) (complete := completeEnc) hs rfl
  refine ⟨_, runCommand_of_accepts haccept, rfl, Memory.wf_writeBytes hm _ _, rfl, rfl, ?secret, ?message⟩
  case secret => exact secret_congr rfl fun a ha _ => read_effect_key (s := { s.accept (.enc s.counter) with wait := 0 }) hm _ ha
  case message =>
    have hread := readBytes_writeBytes hm msgBase (encodeCounter s.counter) []
    rwa [List.append_nil, encodeCounter, be_length] at hread

/-- MAC, issued and completed, leaves the HMAC of its operands at the front of DIGEST (R110). -/
theorem runCommand_mac {s : State} {sel : AlgSelector} {alg : HashAlgorithm} (hs : s.engine = .idle) (hr : sel.resolve = some alg)
    (hk : s.keylen.toNat ≤ s.config.keyCapacity) (hm : s.mem.wf) :
    ∃ t, runCommand (.mac sel) s = .next t ∧ t.engine = .idle ∧ t.digest (digestLen alg) = hmac alg s.secret s.message := by
  refine ⟨_, runCommand_of_accepts (execMac_accepts hs hr hk), rfl, ?digest⟩
  have hread := readBytes_writeBytes hm digestBase (hmac alg s.secret s.message) (zeros (digestLength - digestLen alg))
  rwa [hmac_length] at hread

/-- TRUNC, issued and completed, leaves the truncated value of its own algorithm's digest in VAL (R160). -/
theorem runCommand_trunc {s : State} {sel : AlgSelector} {alg : HashAlgorithm} (hs : s.engine = .idle)
    (hr : sel.resolve = some alg) :
    ∃ t, runCommand (.trunc sel) s = .next t ∧ t.engine = .idle ∧ t.val = truncValue (s.digest (digestLen alg)) :=
  ⟨_, runCommand_of_accepts (execTrunc_accepts hs hr), rfl, rfl⟩

/-! ## The obligations -/

/-- Settles O46: HOTP's writes render the truncated value of the HMAC, byte by byte, modulo 1000000, and its characters pack into the
registers as FMT's do. -/
theorem hotpRendersThePipeline : Obligations.HotpRendersThePipeline := by
  intro s sel alg key ctr hr hbusy hw d offset b n c
  have hoff : (truncOffset d).toNat = offset := by rw [truncOffset_toNat, hmac_length]
  have hvalue : hotpValue alg key ctr = n := by
    change (truncValue d).toNat % 1000000 = n
    rw [truncValue_toNat_bytes (length_hmac_ge alg key _), hoff]
  have hdue : exec (.hotp sel) s = .next { s with
      otpBin := BitVec.ofNat 20 (hotpValue alg key ctr), otp0 := otpChars03 (hotpValue alg key ctr),
      otp1 := otpChars45 (hotpValue alg key ctr), engine := .idle } := execHotp_due hr hbusy hw
  rw [hdue, hvalue, otpChars03_eq, otpChars45_eq]

/-- Settles O47: both blocks capture one secret and one counter, and HOTP renders a value that is made of these. -/
theorem hotpDependsOnItsOperandsOnly : Obligations.HotpDependsOnItsOperandsOnly := by
  intro s t sel sel' alg hs ht hr hr' hks hkt hlen hkey hhi hlo
  refine ⟨_, _, runCommand_hotp hs hr hks, runCommand_hotp ht hr' hkt, sameOtp_render ?_ _ _⟩
  rw [secret_congr hlen hkey, counter_congr hhi hlo]

/-- Settles O48: each command of the chain takes up what the one before it left, so FMT.R renders the truncated value of the HMAC of the
encoded counter, which is HOTP's. -/
theorem hotpIsTheChain : Obligations.HotpIsTheChain := by
  intro s sel alg hs hr hm hk
  obtain ⟨s1, hrun1, hs1, hm1, hlen1, hconfig1, hsecret1, hmessage1⟩ := runCommand_enc hs hm
  obtain ⟨s2, hrun2, hs2, hdigest2⟩ := runCommand_mac hs1 hr (by rwa [hlen1, hconfig1]) hm1
  obtain ⟨s3, hrun3, hs3, hval3⟩ := runCommand_trunc hs2 hr
  have hvalue : fmtValue true s3.val = hotpValue alg s.secret s.counter := by
    rw [hval3, hdigest2, hsecret1, hmessage1]
    rfl
  exact ⟨s1, s2, s3, _, _, hrun1, hrun2, hrun3, runCommand_fmt hs3 (.inl rfl), runCommand_hotp hs hr hk,
    sameOtp_render hvalue _ _, rfl, rfl, rfl⟩

end Sys2Proof.Machine
end

section
/-! The errors of a command (spec/60_exceptions.md R200 to R206): which words are illegal, which check rejects a command, and when OVR
stays set. -/

namespace Sys2Proof.Machine

/-! ## The words -/

/-- OP as a number (R80). -/
theorem opField_toNat (v : Word) : (opField v).toNat = v.toNat % 16 := by
  simp [opField, BitVec.extractLsb'_toNat]

/-- ALG as a number (R80). -/
theorem algField_toNat (v : Word) : (algField v).toNat = v.toNat / 16 % 8 := by
  simp [algField, BitVec.extractLsb'_toNat, Nat.shiftRight_eq_div_pow]

/-- ALG is 0b000 where its number is 0 (R80). -/
theorem algField_eq_zero {v : Word} : algField v = 0#3 ↔ v.toNat / 16 % 8 = 0 := by
  rw [← BitVec.toNat_inj, algField_toNat, BitVec.toNat_ofNat, Nat.zero_mod]

/-- R is 1 where its number is not 0 (R80). -/
theorem reduceField_eq_true {v : Word} : reduceField v = true ↔ v.toNat / 128 % 2 ≠ 0 := by
  have hr : (reduceField v).toNat = v.toNat / 128 % 2 := Nat.toNat_testBit v.toNat 7
  rw [← hr]
  cases reduceField v <;> decide

/-- RSV is 0 exactly for a word below 256 (R80). -/
theorem reservedField_eq_zero {v : Word} : reservedField v = 0#24 ↔ v.toNat / 256 = 0 := by
  have hv := v.isLt
  rw [← BitVec.toNat_inj, reservedField, BitVec.extractLsb'_toNat, BitVec.toNat_ofNat, Nat.shiftRight_eq_div_pow]
  omega

/-- The instruction that the OP of a word names, with the word's own ALG and R (R81 to R83). -/
inductive WordNames (v : Word) : Instr → Prop where
  | enc (hop : v.toNat % 16 = 1) : WordNames v .enc
  | mac (hop : v.toNat % 16 = 2) : WordNames v (.mac (selectorOfField (algField v)))
  | trunc (hop : v.toNat % 16 = 3) : WordNames v (.trunc (selectorOfField (algField v)))
  | fmt (hop : v.toNat % 16 = 4) : WordNames v (.fmt (reduceField v))
  | hotp (hop : v.toNat % 16 = 5) : WordNames v (.hotp (selectorOfField (algField v)))

/-- The decoder rejects the five cases of R201, and decodes every other word to what its OP names (R85, R86). -/
theorem decode_cases (v : Word) :
    (IllegalWord v.toNat ∧ ∃ e, decode v = .error e) ∨ (¬ IllegalWord v.toNat ∧ ∃ i, decode v = .ok i ∧ WordNames v i) := by
  generalize hd : decode v = d
  simp only [decode, withoutReduce, ne_eq, reservedField_eq_zero, algField_eq_zero, reduceField_eq_true, opField_toNat] at hd
  have illegal {e : DecodeError} (hv : IllegalWord v.toNat) (he : .error e = d) :
      IllegalWord v.toNat ∧ ∃ e, d = .error e := ⟨hv, e, he.symm⟩
  split at hd
  case isTrue hrsv => exact .inl (illegal (.inl hrsv) hd)
  case isFalse hrsv =>
    split at hd
    case h_1 hop =>
      split at hd
      · exact .inl (illegal (by omega) hd)
      · split at hd
        · exact .inl (illegal (by omega) hd)
        · exact .inr ⟨by omega, _, hd.symm, .enc hop⟩
    case h_4 hop =>
      split at hd
      · exact .inl (illegal (by omega) hd)
      · exact .inr ⟨by omega, _, hd.symm, .fmt hop⟩
    case h_2 hop | h_3 hop | h_5 hop =>
      split at hd
      · exact .inl (illegal (by omega) hd)
      · exact .inr ⟨by omega, _, hd.symm, by constructor; exact hop⟩
    case h_6 _ h1 h2 h3 h4 h5 =>
      change ¬ _ at h1 h2 h3 h4 h5
      exact .inl (illegal (by omega) hd)

theorem decode_of_legal {v : Word} (hv : ¬ IllegalWord v.toNat) : ∃ i, decode v = .ok i ∧ WordNames v i := by
  obtain ⟨hillegal, -⟩ | ⟨-, hi⟩ := decode_cases v
  · exact absurd hillegal hv
  · exact hi

/-- An idle engine rejects a word of the five cases (R201). -/
theorem issueCommand_illegal {v : Word} {s : State} (hs : s.engine = .idle) (hv : IllegalWord v.toNat) :
    issueCommand v s = .next (s.reject .illegalCommand) := by
  obtain ⟨-, e, hd⟩ | ⟨hlegal, -⟩ := decode_cases v
  · exact issueCommand_of_decode_error hs hd
  · exact absurd hv hlegal

/-- A busy engine drops the word, whatever it is (R206). -/
theorem issueCommand_busy {v : Word} {s : State} (hb : s.engine ≠ .idle) : issueCommand v s = .next s.overrun := by
  unfold issueCommand
  split
  · rfl
  · exact absurd ‹_› hb

/-! ## Selectors -/

theorem selectorOfField_unsupported {a : BitVec 3} (h : 4 ≤ a.toNat) : selectorOfField a = .unsupported a := by
  revert a; decide

theorem selectorOfField_supported {a : BitVec 3} (h : a.toNat < 4) : ∃ alg, (selectorOfField a).resolve = some alg := by
  rw [← Option.isSome_iff_exists]
  revert a; decide

/-- MAC, TRUNC and HOTP with an unsupported ALG are rejected, whatever the registers hold (R202). -/
theorem issueCommand_unsupported {v : Word} {s : State} (hs : s.engine = .idle) (hv : ¬ IllegalWord v.toNat)
    (hop : v.toNat % 16 = 2 ∨ v.toNat % 16 = 3 ∨ v.toNat % 16 = 5) (halg : 4 ≤ v.toNat / 16 % 8) :
    issueCommand v s = .next (s.reject .invalidHashAlgorithm) := by
  obtain ⟨i, hd, hi⟩ := decode_of_legal hv
  have hsel := selectorOfField_unsupported (algField_toNat v ▸ halg)
  rw [issueCommand_of_decode_ok hs hd]
  refine exec_unsupported (c := algField v) hs ?_
  cases hi with
  | enc h | fmt h => omega
  | mac | trunc | hotp => simp [hsel]

/-! ## The operand checks -/

/-- MAC and HOTP reject a secret that does not fit, once their selector is resolved (R203, R205). -/
theorem exec_overlong {i : Instr} {s : State} {sel : AlgSelector} {alg : HashAlgorithm} (hs : s.engine = .idle)
    (hr : sel.resolve = some alg) (hk : s.config.keyCapacity < s.keylen.toNat) (hi : i = .mac sel ∨ i = .hotp sel) :
    exec i s = .next (s.reject .keyLengthError) := by
  have hcheck : checkKeyLength s = .error .keyLengthError := if_pos hk
  obtain rfl | rfl := hi
  · exact lifecycle_rejects (complete := completeMac sel) hs (by simp only [captureMac, checked, resolveSelector, hr, hcheck])
  · exact lifecycle_rejects (complete := completeHotp sel) hs (by simp only [captureHotp, checked, resolveSelector, hr, hcheck])

/-- FMT with R = 0 rejects a value of more than six digits (R204). -/
theorem exec_outOfRange {s : State} (hs : s.engine = .idle) (hval : otpModulus ≤ s.val.toNat) :
    exec (.fmt false) s = .next (s.reject .formatRangeError) := by
  have hcheck : checkFormatRange false s = .error .formatRangeError := if_pos ⟨rfl, hval⟩
  exact lifecycle_rejects (complete := completeFmt false) hs (by simp only [captureFmt, checked, hcheck])

/-- The error of a checked capture is the check's, or the capture's once the check passes (R205). -/
theorem checked_eq_error {α : Type} {check : Except ErrorCode α} {capture : α → Except ErrorCode Snapshot} {e : ErrorCode} :
    checked check capture = .error e ↔ check = .error e ∨ ∃ x, check = .ok x ∧ capture x = .error e := by
  cases check <;> simp [checked]

theorem resolveSelector_error {sel : AlgSelector} {e : ErrorCode} (h : resolveSelector sel = .error e) :
    e = .invalidHashAlgorithm ∧ sel.resolve = none := by
  unfold resolveSelector at h
  split at h <;> cases h
  exact ⟨rfl, ‹_›⟩

theorem checkKeyLength_error {s : State} {e : ErrorCode} (h : checkKeyLength s = .error e) :
    e = .keyLengthError ∧ s.config.keyCapacity < s.keylen.toNat := by
  unfold checkKeyLength at h
  split at h <;> cases h
  exact ⟨rfl, ‹_›⟩

theorem checkFormatRange_error {reduce : Bool} {s : State} {e : ErrorCode} (h : checkFormatRange reduce s = .error e) :
    e = .formatRangeError ∧ reduce = false ∧ otpModulus ≤ s.val.toNat := by
  unfold checkFormatRange at h
  split at h <;> cases h
  exact ⟨rfl, ‹_›⟩

/-- Why an issued command leaves a code other than 0 in STATUS.ERR (R202 to R204). -/
inductive ErrorCause (s : State) : Instr → ErrorCode → Prop where
  | selector {i : Instr} {sel : AlgSelector} (hr : sel.resolve = none) (hi : i = .mac sel ∨ i = .trunc sel ∨ i = .hotp sel) :
      ErrorCause s i .invalidHashAlgorithm
  | key {i : Instr} {sel : AlgSelector} (hk : s.config.keyCapacity < s.keylen.toNat) (hi : i = .mac sel ∨ i = .hotp sel) :
      ErrorCause s i .keyLengthError
  | range (hval : otpModulus ≤ s.val.toNat) : ErrorCause s (.fmt false) .formatRangeError

/-- MAC and HOTP resolve their selector, check KEYLEN and then capture, so what they raise is one of these two errors (R205). -/
theorem errorCause_of_keyed {i : Instr} {s : State} {sel : AlgSelector} {e : ErrorCode} {capture : HashAlgorithm → Snapshot}
    (hi : i = .mac sel ∨ i = .hotp sel)
    (h : checked (resolveSelector sel) (fun alg => checked (checkKeyLength s) fun _ => .ok (capture alg)) = .error e) :
    ErrorCause s i e := by
  obtain hsel | ⟨alg, -, h⟩ := checked_eq_error.1 h
  · obtain ⟨rfl, hr⟩ := resolveSelector_error hsel
    exact .selector hr (hi.imp_right .inr)
  · obtain hkey | ⟨_, -, h⟩ := checked_eq_error.1 h
    · obtain ⟨rfl, hk⟩ := checkKeyLength_error hkey
      exact .key hk hi
    · cases h

theorem errorCause_of_captureTrunc {s : State} {sel : AlgSelector} {e : ErrorCode} (h : captureTrunc sel s = .error e) :
    ErrorCause s (.trunc sel) e := by
  obtain hsel | ⟨alg, -, h⟩ := checked_eq_error.1 h
  · obtain ⟨rfl, hr⟩ := resolveSelector_error hsel
    exact .selector hr (.inr (.inl rfl))
  · cases h

theorem errorCause_of_captureFmt {s : State} {reduce : Bool} {e : ErrorCode} (h : captureFmt reduce s = .error e) :
    ErrorCause s (.fmt reduce) e := by
  obtain hrange | ⟨_, -, h⟩ := checked_eq_error.1 h
  · obtain ⟨rfl, rfl, hval⟩ := checkFormatRange_error hrange
    exact .range hval
  · cases h

/-- The code that an issued command leaves is 0, or the error of its capture (R87). -/
theorem lifecycle_idle_err {capture : State → Except ErrorCode Snapshot} {complete : Snapshot → Option (State → State)} {s t : State}
    (hs : s.engine = .idle) (h : lifecycle capture complete s = .next t) : t.err = .ok ∨ capture s = .error t.err := by
  rw [lifecycle_idle hs] at h
  split at h <;> cases h
  · exact .inr ‹_›
  · exact .inl rfl

/-- The code that a command issued to an idle engine leaves in STATUS.ERR is 0, or has its cause (R87, R202 to R204). -/
theorem exec_idle_err {i : Instr} {s t : State} (hs : s.engine = .idle) (h : exec i s = .next t) :
    t.err = .ok ∨ ErrorCause s i t.err := by
  cases i with
  | enc => exact (lifecycle_idle_err (capture := captureEnc) (complete := completeEnc) hs h).imp_right nofun
  | mac sel => exact (lifecycle_idle_err (complete := completeMac sel) hs h).imp_right (errorCause_of_keyed (.inl rfl))
  | trunc sel => exact (lifecycle_idle_err (complete := completeTrunc sel) hs h).imp_right errorCause_of_captureTrunc
  | fmt reduce => exact (lifecycle_idle_err (complete := completeFmt reduce) hs h).imp_right errorCause_of_captureFmt
  | hotp sel => exact (lifecycle_idle_err (complete := completeHotp sel) hs h).imp_right (errorCause_of_keyed (.inr rfl))

/-- A code other than 0 after an issue has its cause. -/
theorem errorCause_of_err {i : Instr} {s t : State} {e : ErrorCode} (hs : s.engine = .idle) (h : exec i s = .next t) (he : t.err = e)
    (hne : e ≠ .ok) : ErrorCause s i e := by
  subst he
  exact (exec_idle_err hs h).resolve_left hne

/-! ## The obligations about errors -/

/-- Settles O5: the five cases are the words that do not decode, and the error of a command that does decode has another cause. -/
theorem illegalCommandExactly : Obligations.IllegalCommandExactly := by
  intro v
  refine ⟨fun hv s hs => issueCommand_illegal hs hv, fun hv => ?decodes, fun hv s t hs h herr => ?other⟩
  case decodes =>
    obtain ⟨i, hd, -⟩ := decode_of_legal hv
    exact ⟨i, hd⟩
  case other =>
    obtain ⟨i, hd, -⟩ := decode_of_legal hv
    rw [issueCommand_of_decode_ok hs hd] at h
    nomatch errorCause_of_err hs h herr (by decide)

/-- Settles O6: such a word has R = 0 and RSV = 0, so it is none of the five illegal cases. -/
theorem unsupportedSelectorRejected : Obligations.UnsupportedSelectorRejected :=
  ⟨fun _ _ hsmall hop halg hs => issueCommand_unsupported hs (by omega) hop halg, by decide⟩

/-- Settles O7: KeyLengthError has no cause but an overlong secret of MAC or HOTP. -/
theorem overlongKeyRejected : Obligations.OverlongKeyRejected := by
  intro s sel alg hs hr
  refine ⟨fun hk => ⟨exec_overlong hs hr hk (.inl rfl), exec_overlong hs hr hk (.inr rfl)⟩, fun i t h _ herr => ?_⟩
  cases errorCause_of_err hs h herr (by decide) with
  | key hk hi => exact ⟨hk, hi.imp (fun hmac => ⟨_, hmac⟩) fun hhotp => ⟨_, hhotp⟩⟩

/-- Settles O8: FormatRangeError has no cause but the range check of FMT with R = 0. -/
theorem formatRangeRejected : Obligations.FormatRangeRejected := by
  refine ⟨fun s hs hval => exec_outOfRange hs hval, fun i s t hs h _ herr => ?_⟩
  cases errorCause_of_err hs h herr (by decide) with
  | range hval => exact ⟨rfl, hval⟩

/-- Settles O9: the word is illegal or names its operation; that operation's checks fail in the order of R205, and if none fails the
engine accepts. -/
theorem oneErrorByPriority : Obligations.OneErrorByPriority := by
  intro v s
  refine ⟨fun hb => issueCommand_busy hb, fun hs hv => issueCommand_illegal hs hv,
    fun hs hv hop halg => issueCommand_unsupported hs hv hop halg, fun hs hv hop halg hk => ?keyLength,
    fun hs hv hop hr hval => ?formatRange, fun hs hv hselector hkey hrange => ?accepted⟩
  case keyLength =>
    obtain ⟨i, hd, hi⟩ := decode_of_legal hv
    obtain ⟨alg, hr⟩ := selectorOfField_supported (algField_toNat v ▸ halg)
    rw [issueCommand_of_decode_ok hs hd]
    refine exec_overlong hs hr hk ?_
    cases hi with
    | mac => exact .inl rfl
    | hotp => exact .inr rfl
    | enc h | trunc h | fmt h => omega
  case formatRange =>
    obtain ⟨i, hd, hi⟩ := decode_of_legal hv
    have hreduce : reduceField v = false := Bool.eq_false_iff.2 (mt reduceField_eq_true.1 (not_not.2 hr))
    rw [issueCommand_of_decode_ok hs hd]
    cases hi with
    | fmt => rw [hreduce]; exact exec_outOfRange hs hval
    | enc h | mac h | trunc h | hotp h => omega
  case accepted =>
    obtain ⟨i, hd, hi⟩ := decode_of_legal hv
    have accepted {snap : Snapshot} (h : exec i s = .next (s.accept snap)) :
        ∃ t snap, exec i s = .next t ∧ t.err = .ok ∧ t.engine = .busy snap := ⟨_, snap, h, rfl, rfl⟩
    have supported (hop : v.toNat % 16 = 2 ∨ v.toNat % 16 = 3 ∨ v.toNat % 16 = 5) :
        ∃ alg, (selectorOfField (algField v)).resolve = some alg :=
      selectorOfField_supported (by rw [algField_toNat]; omega)
    rw [issueCommand_of_decode_ok hs hd]
    cases hi with
    | enc => exact accepted (lifecycle_accepts (capture := captureEnc) (complete := completeEnc) hs rfl)
    | mac hop =>
      obtain ⟨alg, hr⟩ := supported (by omega)
      exact accepted (execMac_accepts hs hr (by omega))
    | trunc hop =>
      obtain ⟨alg, hr⟩ := supported (by omega)
      exact accepted (execTrunc_accepts hs hr)
    | fmt hop =>
      refine accepted (execFmt_accepts hs ?_)
      rw [reduceField_eq_true, otpModulus]
      omega
    | hotp hop =>
      obtain ⟨alg, hr⟩ := supported (by omega)
      exact accepted (execHotp_accepts hs hr (by omega))

/-- Settles O12, code by code: the type has these five and no other. -/
theorem errorCodesAreNumbered : Obligations.ErrorCodesAreNumbered :=
  ⟨rfl, rfl, rfl, rfl, rfl, fun e => by cases e <;> decide⟩

/-! ## Overrun -/

/-- Only a write to STATUS with bit 8 set clears OVR (R66). -/
theorem writeReg_ovr {r : Reg} {v : Word} {s t : State} (h : writeReg r v s = .next t) (hovr : s.ovr = true) :
    t.ovr = true ∨ (r = .status ∧ v.getLsbD 8 = true) := by
  cases r with
  | cmd =>
    obtain ⟨-, rfl⟩ | ⟨-, ⟨e, -, rfl⟩ | ⟨snap, rfl⟩⟩ := issueCommand_cases h
    · exact .inl rfl
    · exact .inl hovr
    · exact .inl hovr
  | status =>
    cases h
    cases hbit : v.getLsbD 8 with
    | false => exact .inl (by rw [State.writeStatus_ovr, hbit, hovr]; rfl)
    | true => exact .inr ⟨rfl, rfl⟩
  | _ => cases h; exact .inl hovr

/-- STATUS stands at one aligned address (R22). -/
theorem eq_of_regAt_status {a : Addr} (ha : a.toNat % 4 = 0) (h : regAt a.toNat = .status) : a = 0x004#12 := by
  unfold regAt at h
  split at h
  · split at h <;> cases h
    apply BitVec.eq_of_toNat_eq
    rw [BitVec.toNat_ofNat]
    omega
  · repeat' split at h
    all_goals cases h

/-- A step of the host leaves OVR set unless it is a reset or the write of STATUS that clears it (R206). -/
theorem hostStep_ovr {x : HostStep} {s t : State} (h : hostStep x s = .next t) (hovr : s.ovr = true) :
    t.ovr = true ∨ x = .reset ∨ ∃ v, v.getLsbD 8 = true ∧ x = .write 0x004#12 4 v := by
  cases x with
  | read a n => obtain ⟨-, rfl⟩ | ⟨-, rfl⟩ := hostRead_cases h <;> exact .inl hovr
  | write a n v =>
    obtain ⟨-, rfl⟩ | ⟨hserved, hw⟩ := hostWrite_cases h
    · exact .inl hovr
    · obtain ⟨⟨rfl, ha⟩, -⟩ := served_iff.1 hserved
      refine (writeReg_ovr hw hovr).imp_right fun ⟨hr, hbit⟩ => .inr ⟨v, hbit, ?_⟩
      rw [wordOffset_of_aligned ha] at hr
      rw [eq_of_regAt_status ha hr]
  | reset => exact .inr (.inl rfl)
  | poll => obtain rfl | rfl := hostPoll_cases h <;> exact .inl hovr

/-- No completion writes STATUS (R89). -/
@[simp] theorem Snapshot.effect_ovr (snap : Snapshot) (s : State) : (snap.effect s).ovr = s.ovr := by
  cases snap <;> rfl

/-- Settles O11: a busy engine drops the word, and of the three things a step can do only a step of the host can clear OVR. -/
theorem overrunIsDroppedAndSticky : Obligations.OverrunIsDroppedAndSticky := by
  refine ⟨fun v s snap hb => issueCommand_busy (hb ▸ nofun), fun s t h hovr => ?sticky⟩
  obtain ⟨snap, hb, hw, hexec⟩ | ⟨-, -, rfl⟩ | ⟨x, rest, hd, hp, hhost⟩ := step_cases h
  · rw [exec_due hb hw] at hexec
    cases hexec
    exact .inl (by simpa using hovr)
  · exact .inl hovr
  · rw [hp]
    obtain ht | rfl | ⟨v, hbit, rfl⟩ := hostStep_ovr hhost hovr
    · exact .inl ht
    · exact .inr ⟨hd, rest, .inl rfl⟩
    · exact .inr ⟨hd, rest, .inr ⟨v, hbit, rfl⟩⟩

end Sys2Proof.Machine
end

section
/-! Failed transactions (spec/60_exceptions.md R207, R208): what a transaction that is not served leaves unchanged, how it is answered,
and that the machine always goes on. -/

namespace Sys2Proof.Machine

/-- The three causes of R207. -/
theorem served_eq_false_iff {s : State} {a : Addr} {n : Nat} :
    served s a n = false ↔ n ≠ 4 ∨ a.toNat % 4 ≠ 0 ∨ mapped s.config.keyCapacity a = false := by
  rw [← Bool.not_eq_true, served_iff, not_and_or, not_and_or, or_assoc, Bool.not_eq_true]

section
variable {s : State} {a : Addr} {n : Nat}

theorem memRead_refused (h : served s a n = false) : memRead a n s = .error (.busError a) := by
  simp only [memRead, h, Bool.false_eq_true, if_false]

theorem memWrite_refused (v : Word) (h : served s a n = false) : memWrite a n v s = .fault (.busError a) := by
  simp only [memWrite, h, Bool.false_eq_true, if_false]

/-- The host has the error response in place of data (R207). -/
theorem hostRead_refused (h : served s a n = false) : hostRead a n s = .next (s.respond (.busError a)) := by
  simp only [hostRead, memRead_refused h]

theorem hostWrite_refused (v : Word) (h : served s a n = false) : hostWrite a n v s = .next (s.respond (.busError a)) := by
  simp only [hostWrite, memWrite_refused v h]

end

/-- Settles O18: a refused transaction only adds to the host's trace, and one that is served reads or writes the word at its address. -/
theorem failedTransactionChangesNothing : Obligations.FailedTransactionChangesNothing := by
  refine fun s a n v => ⟨fun hcause => ?refused, fun ⟨hn, ha, hmap⟩ => ?served⟩
  case refused =>
    have hs := served_eq_false_iff.2 hcause
    refine ⟨memRead_refused hs, memWrite_refused v hs, fun t h => ?_, fun t h => ?_⟩
    · rw [hostRead_refused hs] at h
      cases h
      rfl
    · rw [hostWrite_refused v hs] at h
      cases h
      rfl
  case served =>
    have hs : served s a n = true := served_iff.2 ⟨⟨hn, ha⟩, hmap⟩
    rw [memRead, memWrite, if_pos hs, if_pos hs]
    exact ⟨⟨_, rfl⟩, writeReg_answers _ v s⟩

/-- Settles O19: the host's turn is a transaction that is refused. -/
theorem failedTransactionIsAnswered : Obligations.FailedTransactionIsAnswered := by
  intro s a n v rest hd hcause hp
  have hs : served (s.beginHostStep rest) a n = false := served_eq_false_iff.2 hcause
  obtain hp | hp := hp
  · exact ⟨_, (step_host hd hp).trans (hostRead_refused hs), rfl, rfl, rfl⟩
  · exact ⟨_, (step_host hd hp).trans (hostWrite_refused v hs), rfl, rfl, rfl⟩

/-- Settles O22: a completion, a step of the host and time passing all answer. -/
theorem everyStepAnswers : Obligations.EveryStepAnswers := by
  intro s
  cases hd : completionDue s with
  | some snap =>
    obtain ⟨hb, hw⟩ := completionDue_eq_some.1 hd
    exact ⟨_, (step_due hb hw).trans (exec_due hb hw)⟩
  | none =>
    cases hp : s.pending with
    | nil => exact ⟨_, step_tick hd hp⟩
    | cons x rest =>
      rw [step_host hd hp]
      exact hostStep_answers x _

end Sys2Proof.Machine
end

section
/-! Reset and hazards (spec/70_reset_and_hazards.md R240 to R250): the block after a reset, what the host's steps leave of a command in
flight, and what such a command writes. -/

namespace Sys2Proof.Machine

/-! ## Reset -/

/-- Settles O21: whatever the block held, it is as after reset but for its configuration. -/
theorem resetDiscardsTheCommand : Obligations.ResetDiscardsTheCommand :=
  fun s => ⟨s.hardReset, rfl, rfl, completionDue_eq_none.2 (.inl rfl), rfl⟩

/-- A selector that a mnemonic names resolves to an algorithm (R82, R86). -/
theorem resolve_of_algSuffix {sel : AlgSelector} (h : algSuffix sel ≠ none) : ∃ alg, sel.resolve = some alg := by
  cases sel with
  | unsupported code => exact absurd rfl h
  | _ => exact ⟨_, rfl⟩

/-- An idle engine whose operands pass both checks of R88 accepts every command that has a mnemonic. -/
theorem exec_accepts_of_mnemonic {i : Instr} {s : State} (hs : s.engine = .idle) (hk : s.keylen.toNat ≤ s.config.keyCapacity)
    (hval : s.val.toNat < otpModulus) (hi : mnemonic i ≠ none) : ∃ snap, exec i s = .next (s.accept snap) := by
  cases i with
  | enc => exact ⟨_, lifecycle_accepts (capture := captureEnc) (complete := completeEnc) hs rfl⟩
  | fmt reduce => exact ⟨_, execFmt_accepts hs (.inr hval)⟩
  | mac sel =>
    obtain ⟨alg, hr⟩ := resolve_of_algSuffix (mt Option.map_eq_none_iff.2 hi)
    exact ⟨_, execMac_accepts hs hr hk⟩
  | trunc sel =>
    obtain ⟨alg, hr⟩ := resolve_of_algSuffix (mt Option.map_eq_none_iff.2 hi)
    exact ⟨_, execTrunc_accepts hs hr⟩
  | hotp sel =>
    obtain ⟨alg, hr⟩ := resolve_of_algSuffix (mt Option.map_eq_none_iff.2 hi)
    exact ⟨_, execHotp_accepts hs hr hk⟩

/-- Settles O60: after reset the engine is idle, and KEYLEN and VAL, which are 0, pass the operand checks. -/
theorem everyCommandRunsFromReset : Obligations.EveryCommandRunsFromReset := by
  intro i hi
  obtain ⟨snap, hexec⟩ := exec_accepts_of_mnemonic (s := State.reset) rfl (by decide) (by decide) hi
  exact ⟨_, snap, hexec, rfl, rfl⟩

/-! ## A command in flight and the host -/

/-- While a command is in flight no write of the host reaches ERR or a register that only commands write (R66, R206). -/
theorem writeReg_results_in_flight {r : Reg} {v : Word} {s t : State} {snap : Snapshot} (hb : s.engine = .busy snap)
    (h : writeReg r v s = .next t) : t.err = s.err ∧ t.toff = s.toff ∧ SameOtp s t := by
  cases r with
  | cmd =>
    rw [writeReg, issueCommand_busy (hb ▸ nofun)] at h
    cases h
    exact ⟨rfl, rfl, rfl, rfl, rfl⟩
  | _ => cases h; simp [SameOtp]

/-- Nor does any other step of the host but a reset (R90, R243). -/
theorem hostStep_results_in_flight {x : HostStep} {s t : State} {snap : Snapshot} (hb : s.engine = .busy snap) (hx : x ≠ .reset)
    (h : hostStep x s = .next t) : t.err = s.err ∧ t.toff = s.toff ∧ SameOtp s t := by
  cases x with
  | read a n => obtain ⟨-, rfl⟩ | ⟨-, rfl⟩ := hostRead_cases h <;> exact ⟨rfl, rfl, rfl, rfl, rfl⟩
  | write a n v =>
    obtain ⟨-, rfl⟩ | ⟨-, hw⟩ := hostWrite_cases h
    · exact ⟨rfl, rfl, rfl, rfl, rfl⟩
    · exact writeReg_results_in_flight hb hw
  | reset => exact absurd rfl hx
  | poll => obtain rfl | rfl := hostPoll_cases h <;> exact ⟨rfl, rfl, rfl, rfl, rfl⟩

/-- Settles O53: with latency left a step lets time pass or is the host's, and a step of the host that is no reset leaves the command
in flight and its results alone. -/
theorem commandInFlightIsUntouched : Obligations.CommandInFlightIsUntouched := by
  intro s t snap hb hw hreset h
  obtain ⟨_, -, hdue, -⟩ | ⟨-, -, rfl⟩ | ⟨x, rest, -, hp, hhost⟩ := step_cases h
  · exact absurd hdue hw
  · exact ⟨hb, rfl, rfl, rfl, rfl, rfl, rfl⟩
  · have hx : x ≠ .reset := fun hx => hreset (by rw [hp, hx, List.head?_cons])
    obtain ⟨hengine, hwait, -⟩ := hostStep_in_flight (s := s.beginHostStep rest) hb hx hhost
    obtain ⟨herr, htoff, hotp⟩ := hostStep_results_in_flight (s := s.beginHostStep rest) hb hx hhost
    exact ⟨hengine, herr, hwait, htoff, hotp⟩

/-- Once its latency has run out, a command in flight has made the writes of the operands it captured, on whatever block the host's
steps have left (R88, R91, R245). -/
theorem steps_complete_in_flight {s : State} {snap : Snapshot} (hb : s.engine = .busy snap) (hreset : .reset ∉ s.pending) :
    ∃ u, steps (s.wait + 1) s = .next (snap.effect u).retire := by
  generalize hn : s.wait = n
  induction n generalizing s with
  | zero => exact ⟨s, by simp only [steps, step_due hb hn, exec_due hb hn]⟩
  | succ n ih =>
    obtain ⟨t, hstep, hengine, hwait, hpending⟩ := step_in_flight hb (by omega) hreset
    obtain ⟨u, hsteps⟩ := ih hengine hpending (by omega)
    exact ⟨u, by rw [steps, hstep]; exact hsteps⟩

/-- Settles O56: the writes of HOTP render the value of its captured operands, which is below the modulus. -/
theorem hotpInFlightWritesItsOwnOtp : Obligations.HotpInFlightWritesItsOwnOtp := by
  intro s alg key ctr hb hreset
  obtain ⟨u, hsteps⟩ := steps_complete_in_flight hb hreset
  have hlt : hotpValue alg key ctr < otpModulus := Nat.mod_lt _ (by decide)
  exact ⟨_, hsteps, render_otpBin_toNat hlt u, decimalValue_render hlt u⟩

/-! ## DIGEST does not record its algorithm -/

/-- MAC, issued and completed, leaves each byte of DIGEST as its digest or the zeros behind it (R110, R115). -/
theorem runCommand_mac_read {s : State} {sel : AlgSelector} {alg : HashAlgorithm} (hs : s.engine = .idle) (hr : sel.resolve = some alg)
    (hk : s.keylen.toNat ≤ s.config.keyCapacity) (hm : s.mem.wf) :
    ∃ t, runCommand (.mac sel) s = .next t ∧ t.engine = .idle ∧
      ∀ i < 64, t.mem.read (0x080 + i) = (macDigest alg s.secret s.message).getD i 0#8 :=
  ⟨_, runCommand_of_accepts (execMac_accepts hs hr hk), rfl, fun _ hi =>
    read_effect_mac_digest (s := { s.accept (.mac alg s.secret s.message) with wait := 0 }) hm _ _ _ hi⟩

/-- TRUNC, issued and completed, takes its offset from the last byte of its own algorithm's digest length (R160). -/
theorem runCommand_trunc_toff {s : State} {sel : AlgSelector} {alg : HashAlgorithm} (hs : s.engine = .idle)
    (hr : sel.resolve = some alg) :
    ∃ t, runCommand (.trunc sel) s = .next t ∧ t.err = .ok ∧
      t.toff.toNat = (s.mem.read (0x080 + (digestLen alg - 1))).toNat % 16 := by
  refine ⟨_, runCommand_of_accepts (execTrunc_accepts hs hr), rfl, ?toff⟩
  have hlen : (s.digest (digestLen alg)).length = digestLen alg := Memory.readBytes_length _ _ _
  have hlast : digestLen alg - 1 < digestLen alg := by cases alg <;> decide
  calc (truncOffset (s.digest (digestLen alg))).toNat
      = ((s.digest (digestLen alg)).getD (digestLen alg - 1) 0#8).toNat % 16 := by rw [truncOffset_toNat, hlen]
    _ = (s.mem.read (0x080 + (digestLen alg - 1))).toNat % 16 := by rw [State.digest, Memory.readBytes_getD _ _ _ _ hlast]; rfl

/-- Settles O41: byte 31 of DIGEST is one of the zeros behind a SHA-1 digest, and byte 19 is the last that TRUNC.SHA1 captures. -/
theorem truncGoesByItsOwnAlgorithm : Obligations.TruncGoesByItsOwnAlgorithm := by
  refine fun s hs hm hk => ⟨?longer, ?shorter⟩
  case longer =>
    obtain ⟨t, hmac, ht, hread⟩ := runCommand_mac_read (sel := .sha1) hs rfl hk hm
    obtain ⟨u, htrunc, herr, htoff⟩ := runCommand_trunc_toff (sel := .sha256) ht rfl
    have hzero : t.mem.read (0x080 + 31) = 0#8 := (hread 31 (by decide)).trans (macDigest_getD_rest _ _ _ (by decide))
    refine ⟨t, u, hmac, htrunc, BitVec.eq_of_toNat_eq (htoff.trans ?_), herr⟩
    rw [digestLen, hzero]
    rfl
  case shorter =>
    obtain ⟨t, hmac, ht, -⟩ := runCommand_mac_read (sel := .sha256) hs rfl hk hm
    obtain ⟨u, htrunc, herr, htoff⟩ := runCommand_trunc_toff (sel := .sha1) ht rfl
    exact ⟨t, u, hmac, htrunc, htoff, herr⟩

end Sys2Proof.Machine
end
